-- ==== Sys2Proof/Word.lean ====
section
/-! DEFINITION. The machine's words (00_scope.md R9, R10): 32-bit registers, addresses and PCs, 8-bit
bytes and 5-bit register numbers, as bit vectors so that arithmetic wraps as R10 says. -/

namespace Sys2Proof

/-- A register value, an address or a PC (R10). -/
abbrev Word := BitVec 32

/-- One byte of memory (R49). -/
abbrev Byte := BitVec 8

/-- A general register number x0..x31 (R30). -/
abbrev Reg := BitVec 5

/-- `INT32_MIN` of R10. -/
abbrev int32Min : Word := 0x80000000#32

/-- The canonical NOP word `ADDI x0, x0, 0` (R121). -/
abbrev nopWord : Word := 0x00000013#32

end Sys2Proof
end

