-- ==== Sys2Proof/Machine/Record.lean ====
section
/-! DEFINITION. The decoded instruction record of 10_state.md section 4, which the pipeline registers hold, and
the names of the reserved cells of 30_encoding.md R120. -/

namespace Sys2Proof.Machine

/-- The format tag (R103): six formats and the NOP tag. -/
inductive Fmt where
  | R | I | S | B | U | J | NOP
  deriving DecidableEq, Repr

/-- The record `decode(word)` produces (10_state.md section 4). A field the format lacks is 0 (R105). -/
structure Inst where
  word   : Word
  fmt    : Fmt
  opcode : BitVec 7
  funct3 : BitVec 3
  funct7 : BitVec 7
  rs1    : Reg
  rs2    : Reg
  rd     : Reg
  imm    : Word
  deriving DecidableEq, Repr

/-- BUBBLE: the record of `ADDI x0, x0, 0` with its format replaced by NOP (10_state.md section 4). -/
def Inst.bubble : Inst where
  word   := nopWord
  fmt    := .NOP
  opcode := 0b0010011#7
  funct3 := 0#3
  funct7 := 0#7
  rs1    := 0#5
  rs2    := 0#5
  rd     := 0#5
  imm    := 0#32

/-- The reserved cells of the implemented opcodes (R120, 93_implementation_defined.md I1 to I5). -/
inductive Reserved where
  /-- I1: opcode 0110011 with funct7 none of 0000000, 0100000, 0000001. -/
  | registerFunct7
  /-- I2: opcode 0110011, funct7 0100000, funct3 neither 000 nor 101. -/
  | invertedFunct3
  /-- I3: opcode 1100011, funct3 010 or 011. -/
  | branchFunct3
  /-- I4: opcode 0000011, funct3 011, 110 or 111. -/
  | loadFunct3
  /-- I5: opcode 0100011, funct3 011 to 111. -/
  | storeFunct3
  deriving DecidableEq, Repr

/-- Why a byte sequence is no instruction: fewer than four bytes (R101: every instruction is one 32-bit word), or a
reserved cell (R120). -/
inductive Reject where
  | truncated
  | reserved (cell : Reserved)
  deriving DecidableEq, Repr

end Sys2Proof.Machine
end

