-- ==== Sys2Proof/Syntax.lean ====
section
/-! DEFINITION. The instructions: one constructor per row of spec/opcode_table.json. An operand field holds every
bit of the word the row leaves free, so that each word has exactly one reading (30_encoding.md R104). -/

namespace Sys2Proof

/-- The instructions of the opcode table. `imm` and `off` are the encoded immediates before sign extension
(R106 to R110); `rest` is `word[31:7]` of an opcode whose other bits are not inspected. -/
inductive Instr where
  -- R-type, funct7 0000000 and 0100000 (R142 to R151)
  | add (rd rs1 rs2 : Reg)
  | sub (rd rs1 rs2 : Reg)
  | sll (rd rs1 rs2 : Reg)
  | slt (rd rs1 rs2 : Reg)
  | sltu (rd rs1 rs2 : Reg)
  | xor (rd rs1 rs2 : Reg)
  | srl (rd rs1 rs2 : Reg)
  | sra (rd rs1 rs2 : Reg)
  | or (rd rs1 rs2 : Reg)
  | and (rd rs1 rs2 : Reg)
  -- R-type, funct7 0000001 (R182 to R189)
  | mul (rd rs1 rs2 : Reg)
  | mulh (rd rs1 rs2 : Reg)
  | mulhsu (rd rs1 rs2 : Reg)
  | mulhu (rd rs1 rs2 : Reg)
  | div (rd rs1 rs2 : Reg)
  | divu (rd rs1 rs2 : Reg)
  | rem (rd rs1 rs2 : Reg)
  | remu (rd rs1 rs2 : Reg)
  -- I-type arithmetic (R152 to R160)
  | addi (rd rs1 : Reg) (imm : BitVec 12)
  | slti (rd rs1 : Reg) (imm : BitVec 12)
  | sltiu (rd rs1 : Reg) (imm : BitVec 12)
  | xori (rd rs1 : Reg) (imm : BitVec 12)
  | ori (rd rs1 : Reg) (imm : BitVec 12)
  | andi (rd rs1 : Reg) (imm : BitVec 12)
  | slli (rd rs1 : Reg) (imm : BitVec 12)
  | srli (rd rs1 : Reg) (imm : BitVec 12)
  | srai (rd rs1 : Reg) (imm : BitVec 12)
  -- U-type (R161, R162)
  | lui (rd : Reg) (imm20 : BitVec 20)
  | auipc (rd : Reg) (imm20 : BitVec 20)
  -- jumps (R204, R205); JALR keeps the funct3 it does not inspect (R118)
  | jal (rd : Reg) (off : BitVec 21)
  | jalr (rd rs1 : Reg) (imm : BitVec 12) (funct3 : BitVec 3)
  -- conditional branches (R206 to R211)
  | beq (rs1 rs2 : Reg) (off : BitVec 13)
  | bne (rs1 rs2 : Reg) (off : BitVec 13)
  | blt (rs1 rs2 : Reg) (off : BitVec 13)
  | bge (rs1 rs2 : Reg) (off : BitVec 13)
  | bltu (rs1 rs2 : Reg) (off : BitVec 13)
  | bgeu (rs1 rs2 : Reg) (off : BitVec 13)
  -- loads and stores (R234 to R241)
  | lb (rd rs1 : Reg) (imm : BitVec 12)
  | lh (rd rs1 : Reg) (imm : BitVec 12)
  | lw (rd rs1 : Reg) (imm : BitVec 12)
  | lbu (rd rs1 : Reg) (imm : BitVec 12)
  | lhu (rd rs1 : Reg) (imm : BitVec 12)
  | sb (rs2 rs1 : Reg) (imm : BitVec 12)
  | sh (rs2 rs1 : Reg) (imm : BitVec 12)
  | sw (rs2 rs1 : Reg) (imm : BitVec 12)
  -- words of no implemented opcode, all NOPs (44_system_unallocated.md R250 to R265)
  | fence (rd rs1 : Reg) (imm : BitVec 12)
  | fenceI (rd rs1 : Reg) (imm : BitVec 12)
  | ecall
  | ebreak
  | csrrw (rd : Reg) (csr : BitVec 12) (rs1 : Reg)
  | csrrs (rd : Reg) (csr : BitVec 12) (rs1 : Reg)
  | csrrc (rd : Reg) (csr : BitVec 12) (rs1 : Reg)
  | csrrwi (rd : Reg) (csr : BitVec 12) (uimm : BitVec 5)
  | csrrsi (rd : Reg) (csr : BitVec 12) (uimm : BitVec 5)
  | csrrci (rd : Reg) (csr : BitVec 12) (uimm : BitVec 5)
  | mret
  | sret
  | wfi
  | sfenceVma (rs1 rs2 : Reg)
  | lrW (rd rs1 : Reg) (aqrl : BitVec 2)
  | scW (rd rs1 rs2 : Reg) (aqrl : BitVec 2)
  | amo (rest : BitVec 25)
  | loadFp (rest : BitVec 25)
  | storeFp (rest : BitVec 25)
  | opFp (rest : BitVec 25)
  | fmadd (rest : BitVec 25)
  | fmsub (rest : BitVec 25)
  | fnmsub (rest : BitVec 25)
  | fnmadd (rest : BitVec 25)
  | op32 (rest : BitVec 25)
  | opImm32 (rest : BitVec 25)
  | custom0 (rest : BitVec 25)
  | custom1 (rest : BitVec 25)
  | custom2 (rest : BitVec 25)
  | custom3 (rest : BitVec 25)
  -- the table's catch-all row, "lowest priority"
  | anyOther (word : Word)
  deriving DecidableEq, Repr

end Sys2Proof
end

