-- ==== Sys2Proof/WellFormed.lean ====
section
/-! DEFINITION. Which instruction terms are the reading of some word: an offset is even (30_encoding.md R108,
R110), SRLI and SRAI are told apart by immediate bit 10 (R112), and a word read as the AMO row or as the table's
catch-all row is no word of another row. -/

namespace Sys2Proof

/-- Is this AMO word's `word[31:7]` that of LR.W (table mask 0xF9F0707F)? -/
def isLrRest (rest : BitVec 25) : Bool :=
  rest.extractLsb' 20 5 == 0b00010#5 && rest.extractLsb' 13 5 == 0#5 && rest.extractLsb' 5 3 == 0b010#3

/-- Is this AMO word's `word[31:7]` that of SC.W (table mask 0xF800707F)? -/
def isScRest (rest : BitVec 25) : Bool :=
  rest.extractLsb' 20 5 == 0b00011#5 && rest.extractLsb' 5 3 == 0b010#3

/-- The opcodes that leave no word to the catch-all row: the nine implemented ones (R103) and the NOP rows whose
only selector is the opcode. -/
def rowOpcodes : List (BitVec 7) :=
  [0b0110011#7, 0b0010011#7, 0b0000011#7, 0b1100111#7, 0b0100011#7, 0b1100011#7, 0b0110111#7, 0b0010111#7,
   0b1101111#7, 0b0101111#7, 0b0000111#7, 0b0100111#7, 0b1010011#7, 0b1000011#7, 0b1000111#7, 0b1001011#7,
   0b1001111#7, 0b0111011#7, 0b0011011#7, 0b0001011#7, 0b0101011#7, 0b1011011#7, 0b1111011#7]

/-- Does a MISC-MEM word belong to the FENCE or the FENCE.I row (R251)? -/
def isMiscMemRow (w : Word) : Bool :=
  w.extractLsb' 12 3 == 0#3 || w.extractLsb' 12 3 == 1#3

/-- Does a SYSTEM word belong to one of the table's SYSTEM rows (R252 to R262)? -/
def isSystemRow (w : Word) : Bool :=
  let f3 := w.extractLsb' 12 3
  f3 == 1#3 || f3 == 2#3 || f3 == 3#3 || f3 == 5#3 || f3 == 6#3 || f3 == 7#3
    || w == 0x00000073#32 || w == 0x00100073#32 || w == 0x30200073#32 || w == 0x10200073#32 || w == 0x10500073#32
    || (f3 == 0#3 && w.extractLsb' 7 5 == 0#5 && w.extractLsb' 25 7 == 0b0001001#7)

/-- Is the word left to the table's catch-all row? -/
def isOtherWord (w : Word) : Bool :=
  let op := w.extractLsb' 0 7
  !(rowOpcodes.contains op) && !(op == 0b0001111#7 && isMiscMemRow w) && !(op == 0b1110011#7 && isSystemRow w)

/-- The terms that stand for a word. -/
def Instr.wf : Instr → Bool
  | .add _ _ _ | .sub _ _ _ | .sll _ _ _ | .slt _ _ _ | .sltu _ _ _ | .xor _ _ _ | .srl _ _ _ | .sra _ _ _
  | .or _ _ _ | .and _ _ _ => true
  | .mul _ _ _ | .mulh _ _ _ | .mulhsu _ _ _ | .mulhu _ _ _ | .div _ _ _ | .divu _ _ _ | .rem _ _ _
  | .remu _ _ _ => true
  | .addi _ _ _ | .slti _ _ _ | .sltiu _ _ _ | .xori _ _ _ | .ori _ _ _ | .andi _ _ _ | .slli _ _ _ => true
  | .srli _ _ imm => !imm.getLsbD 10
  | .srai _ _ imm => imm.getLsbD 10
  | .lui _ _ | .auipc _ _ => true
  | .jal _ off => !off.getLsbD 0
  | .jalr _ _ _ _ => true
  | .beq _ _ off | .bne _ _ off | .blt _ _ off | .bge _ _ off | .bltu _ _ off | .bgeu _ _ off => !off.getLsbD 0
  | .lb _ _ _ | .lh _ _ _ | .lw _ _ _ | .lbu _ _ _ | .lhu _ _ _ | .sb _ _ _ | .sh _ _ _ | .sw _ _ _ => true
  | .fence _ _ _ | .fenceI _ _ _ | .ecall | .ebreak => true
  | .csrrw _ _ _ | .csrrs _ _ _ | .csrrc _ _ _ | .csrrwi _ _ _ | .csrrsi _ _ _ | .csrrci _ _ _ => true
  | .mret | .sret | .wfi | .sfenceVma _ _ => true
  | .lrW _ _ _ | .scW _ _ _ _ => true
  | .amo rest => !(isLrRest rest) && !(isScRest rest)
  | .loadFp _ | .storeFp _ | .opFp _ | .fmadd _ | .fmsub _ | .fnmsub _ | .fnmadd _ | .op32 _ | .opImm32 _ => true
  | .custom0 _ | .custom1 _ | .custom2 _ | .custom3 _ => true
  | .anyOther w => isOtherWord w

end Sys2Proof
end

