-- ==== Sys2Proof/Decode.lean ====
section
/-! DEFINITION. The decoder and the encoder (30_encoding.md). `decodeRecord` is the source's total decoder to the
`Inst` record (R100 to R111); `decode` names the instruction a word is, or the reserved cell it lies in (R113 to
R120); `encode` is the word of an instruction, written from the layouts of R104. -/

namespace Sys2Proof

open Sys2Proof.Machine

/-! ## Fields (R102) and immediates (R106 to R110) -/

def opcodeOf (w : Word) : BitVec 7 := w.extractLsb' 0 7
def rdOf (w : Word) : Reg := w.extractLsb' 7 5
def funct3Of (w : Word) : BitVec 3 := w.extractLsb' 12 3
def rs1Of (w : Word) : Reg := w.extractLsb' 15 5
def rs2Of (w : Word) : Reg := w.extractLsb' 20 5
def funct7Of (w : Word) : BitVec 7 := w.extractLsb' 25 7
def restOf (w : Word) : BitVec 25 := w.extractLsb' 7 25

/-- The encoded I-immediate `word[31:20]` (R106). -/
def immIOf (w : Word) : BitVec 12 := w.extractLsb' 20 12

/-- The encoded S-immediate (R107). -/
def immSOf (w : Word) : BitVec 12 := w.extractLsb' 25 7 ++ w.extractLsb' 7 5

/-- The encoded B-immediate (R108). -/
def immBOf (w : Word) : BitVec 13 :=
  w.extractLsb' 31 1 ++ w.extractLsb' 7 1 ++ w.extractLsb' 25 6 ++ w.extractLsb' 8 4 ++ 0#1

/-- `word[31:12]` of a U-type word (R109). -/
def immUOf (w : Word) : BitVec 20 := w.extractLsb' 12 20

/-- The encoded J-immediate (R110). -/
def immJOf (w : Word) : BitVec 21 :=
  w.extractLsb' 31 1 ++ w.extractLsb' 12 8 ++ w.extractLsb' 20 1 ++ w.extractLsb' 21 10 ++ 0#1

/-- `sext_12` (R106, R107). -/
def sext12 (v : BitVec 12) : Word := v.signExtend 32

/-- `sext_13` (R108). -/
def sext13 (v : BitVec 13) : Word := v.signExtend 32

/-- `sext_21` (R110). -/
def sext21 (v : BitVec 21) : Word := v.signExtend 32

/-- `{imm20, 0x000}` (R109). -/
def upper20 (v : BitVec 20) : Word := v ++ 0#12

/-! ## The source's decoder: word to record (R100, R103, R105, R111) -/

/-- The fixed opcode → format table of R103. -/
def formatOf (op : BitVec 7) : Fmt :=
  if op = 0b0110011#7 then .R
  else if op = 0b0010011#7 then .I
  else if op = 0b0000011#7 then .I
  else if op = 0b1100111#7 then .I
  else if op = 0b0100011#7 then .S
  else if op = 0b1100011#7 then .B
  else if op = 0b0110111#7 then .U
  else if op = 0b0010111#7 then .U
  else if op = 0b1101111#7 then .J
  else .NOP

/-- The immediate of a word of a format (R106 to R111). -/
def immediateOf (f : Fmt) (w : Word) : Word :=
  match f with
  | .R => 0#32
  | .I => sext12 (immIOf w)
  | .S => sext12 (immSOf w)
  | .B => sext13 (immBOf w)
  | .U => upper20 (immUOf w)
  | .J => sext21 (immJOf w)
  | .NOP => 0#32

/-- "R,I,S,B have rs1" (R104, 10_state.md R34). -/
def hasRs1 : Fmt → Bool
  | .R | .I | .S | .B => true
  | .U | .J | .NOP => false

/-- "R,S,B have rs2" (R104, 10_state.md R34). -/
def hasRs2 : Fmt → Bool
  | .R | .S | .B => true
  | .I | .U | .J | .NOP => false

/-- The formats with a destination register (R105, 50_pipeline.md R322). -/
def hasRd : Fmt → Bool
  | .R | .I | .U | .J => true
  | .S | .B | .NOP => false

/-- `decode(word)` of R100. -/
def decodeRecord (w : Word) : Inst :=
  let f := formatOf (opcodeOf w)
  { word   := w
    fmt    := f
    opcode := opcodeOf w
    funct3 := if hasRs1 f then funct3Of w else 0#3
    funct7 := if f = .R then funct7Of w else 0#7
    rs1    := if hasRs1 f then rs1Of w else 0#5
    rs2    := if hasRs2 f then rs2Of w else 0#5
    rd     := if hasRd f then rdOf w else 0#5
    imm    := immediateOf f w }

/-! ## Word to instruction (R113 to R120) -/

/-- Opcode 0110011 (R113). -/
def decodeRegister (w : Word) : Except Reserved Instr :=
  let rd := rdOf w
  let rs1 := rs1Of w
  let rs2 := rs2Of w
  let f3 := funct3Of w
  if funct7Of w = 0b0000000#7 then
    .ok (if f3 = 0#3 then .add rd rs1 rs2
      else if f3 = 1#3 then .sll rd rs1 rs2
      else if f3 = 2#3 then .slt rd rs1 rs2
      else if f3 = 3#3 then .sltu rd rs1 rs2
      else if f3 = 4#3 then .xor rd rs1 rs2
      else if f3 = 5#3 then .srl rd rs1 rs2
      else if f3 = 6#3 then .or rd rs1 rs2
      else .and rd rs1 rs2)
  else if funct7Of w = 0b0100000#7 then
    if f3 = 0#3 then .ok (.sub rd rs1 rs2)
    else if f3 = 5#3 then .ok (.sra rd rs1 rs2)
    else .error .invertedFunct3
  else if funct7Of w = 0b0000001#7 then
    .ok (if f3 = 0#3 then .mul rd rs1 rs2
      else if f3 = 1#3 then .mulh rd rs1 rs2
      else if f3 = 2#3 then .mulhsu rd rs1 rs2
      else if f3 = 3#3 then .mulhu rd rs1 rs2
      else if f3 = 4#3 then .div rd rs1 rs2
      else if f3 = 5#3 then .divu rd rs1 rs2
      else if f3 = 6#3 then .rem rd rs1 rs2
      else .remu rd rs1 rs2)
  else .error .registerFunct7

/-- Opcode 0010011 (R114); only `word[30]` tells SRLI from SRAI (R112). -/
def decodeImmediate (w : Word) : Instr :=
  let rd := rdOf w
  let rs1 := rs1Of w
  let imm := immIOf w
  let f3 := funct3Of w
  if f3 = 0#3 then .addi rd rs1 imm
  else if f3 = 1#3 then .slli rd rs1 imm
  else if f3 = 2#3 then .slti rd rs1 imm
  else if f3 = 3#3 then .sltiu rd rs1 imm
  else if f3 = 4#3 then .xori rd rs1 imm
  else if f3 = 5#3 then (if imm.getLsbD 10 then .srai rd rs1 imm else .srli rd rs1 imm)
  else if f3 = 6#3 then .ori rd rs1 imm
  else .andi rd rs1 imm

/-- Opcode 0000011 (R115). -/
def decodeLoad (w : Word) : Except Reserved Instr :=
  let rd := rdOf w
  let rs1 := rs1Of w
  let imm := immIOf w
  let f3 := funct3Of w
  if f3 = 0#3 then .ok (.lb rd rs1 imm)
  else if f3 = 1#3 then .ok (.lh rd rs1 imm)
  else if f3 = 2#3 then .ok (.lw rd rs1 imm)
  else if f3 = 4#3 then .ok (.lbu rd rs1 imm)
  else if f3 = 5#3 then .ok (.lhu rd rs1 imm)
  else .error .loadFunct3

/-- Opcode 0100011 (R116). -/
def decodeStore (w : Word) : Except Reserved Instr :=
  let rs1 := rs1Of w
  let rs2 := rs2Of w
  let imm := immSOf w
  let f3 := funct3Of w
  if f3 = 0#3 then .ok (.sb rs2 rs1 imm)
  else if f3 = 1#3 then .ok (.sh rs2 rs1 imm)
  else if f3 = 2#3 then .ok (.sw rs2 rs1 imm)
  else .error .storeFunct3

/-- Opcode 1100011 (R117). -/
def decodeBranch (w : Word) : Except Reserved Instr :=
  let rs1 := rs1Of w
  let rs2 := rs2Of w
  let off := immBOf w
  let f3 := funct3Of w
  if f3 = 0#3 then .ok (.beq rs1 rs2 off)
  else if f3 = 1#3 then .ok (.bne rs1 rs2 off)
  else if f3 = 4#3 then .ok (.blt rs1 rs2 off)
  else if f3 = 5#3 then .ok (.bge rs1 rs2 off)
  else if f3 = 6#3 then .ok (.bltu rs1 rs2 off)
  else if f3 = 7#3 then .ok (.bgeu rs1 rs2 off)
  else .error .branchFunct3

/-- Opcode 0001111, MISC-MEM (44_system_unallocated.md R251). -/
def decodeMiscMem (w : Word) : Instr :=
  if funct3Of w = 0#3 then .fence (rdOf w) (rs1Of w) (immIOf w)
  else if funct3Of w = 1#3 then .fenceI (rdOf w) (rs1Of w) (immIOf w)
  else .anyOther w

/-- Opcode 1110011, SYSTEM (44_system_unallocated.md R252 to R262). -/
def decodeSystem (w : Word) : Instr :=
  let f3 := funct3Of w
  if f3 = 1#3 then .csrrw (rdOf w) (immIOf w) (rs1Of w)
  else if f3 = 2#3 then .csrrs (rdOf w) (immIOf w) (rs1Of w)
  else if f3 = 3#3 then .csrrc (rdOf w) (immIOf w) (rs1Of w)
  else if f3 = 5#3 then .csrrwi (rdOf w) (immIOf w) (rs1Of w)
  else if f3 = 6#3 then .csrrsi (rdOf w) (immIOf w) (rs1Of w)
  else if f3 = 7#3 then .csrrci (rdOf w) (immIOf w) (rs1Of w)
  else if w = 0x00000073#32 then .ecall
  else if w = 0x00100073#32 then .ebreak
  else if w = 0x30200073#32 then .mret
  else if w = 0x10200073#32 then .sret
  else if w = 0x10500073#32 then .wfi
  else if f3 = 0#3 ∧ rdOf w = 0#5 ∧ funct7Of w = 0b0001001#7 then .sfenceVma (rs1Of w) (rs2Of w)
  else .anyOther w

/-- Opcode 0101111, AMO (44_system_unallocated.md R263). -/
def decodeAmo (w : Word) : Instr :=
  if isLrRest (restOf w) then .lrW (rdOf w) (rs1Of w) (w.extractLsb' 25 2)
  else if isScRest (restOf w) then .scW (rdOf w) (rs1Of w) (rs2Of w) (w.extractLsb' 25 2)
  else .amo (restOf w)

/-- The words of no implemented opcode, all NOPs, by the row of the table they match (R250 to R265). -/
def decodeOther (w : Word) : Instr :=
  let op := opcodeOf w
  if op = 0b0001111#7 then decodeMiscMem w
  else if op = 0b1110011#7 then decodeSystem w
  else if op = 0b0101111#7 then decodeAmo w
  else if op = 0b0000111#7 then .loadFp (restOf w)
  else if op = 0b0100111#7 then .storeFp (restOf w)
  else if op = 0b1010011#7 then .opFp (restOf w)
  else if op = 0b1000011#7 then .fmadd (restOf w)
  else if op = 0b1000111#7 then .fmsub (restOf w)
  else if op = 0b1001011#7 then .fnmsub (restOf w)
  else if op = 0b1001111#7 then .fnmadd (restOf w)
  else if op = 0b0111011#7 then .op32 (restOf w)
  else if op = 0b0011011#7 then .opImm32 (restOf w)
  else if op = 0b0001011#7 then .custom0 (restOf w)
  else if op = 0b0101011#7 then .custom1 (restOf w)
  else if op = 0b1011011#7 then .custom2 (restOf w)
  else if op = 0b1111011#7 then .custom3 (restOf w)
  else .anyOther w

/-- The instruction a word is, or the reserved cell it lies in. -/
def decode (w : Word) : Except Reserved Instr :=
  let op := opcodeOf w
  if op = 0b0110011#7 then decodeRegister w
  else if op = 0b0010011#7 then .ok (decodeImmediate w)
  else if op = 0b0000011#7 then decodeLoad w
  else if op = 0b1100111#7 then .ok (.jalr (rdOf w) (rs1Of w) (immIOf w) (funct3Of w))
  else if op = 0b0100011#7 then decodeStore w
  else if op = 0b1100011#7 then decodeBranch w
  else if op = 0b0110111#7 then .ok (.lui (rdOf w) (immUOf w))
  else if op = 0b0010111#7 then .ok (.auipc (rdOf w) (immUOf w))
  else if op = 0b1101111#7 then .ok (.jal (rdOf w) (immJOf w))
  else .ok (decodeOther w)

/-- The word four bytes in address order hold: little-endian (20_memory.md R74). -/
def wordOfBytes (b0 b1 b2 b3 : Byte) : Word := b3 ++ b2 ++ b1 ++ b0

/-- The four bytes of a word in address order (20_memory.md R74). -/
def bytesOfWord (w : Word) : List Byte :=
  [w.extractLsb' 0 8, w.extractLsb' 8 8, w.extractLsb' 16 8, w.extractLsb' 24 8]

/-- Decode the instruction at the head of a byte sequence, and what follows it (R100, R101). -/
def decodeBytes : List Byte → Except Reject (Instr × List Byte)
  | b0 :: b1 :: b2 :: b3 :: rest =>
    match decode (wordOfBytes b0 b1 b2 b3) with
    | .ok i => .ok (i, rest)
    | .error c => .error (.reserved c)
  | _ => .error .truncated

/-- What the decoder reads from the word `w` of the opcode table's numbering (nbits bits, the rest 0). -/
def decodeTableWord (nbits w : Nat) : Option Instr :=
  match decodeBytes (bytesOfWord (BitVec.ofNat 32 (w % 2 ^ nbits))) with
  | .ok (i, _) => some i
  | .error _ => none

/-! ## The encoder (R104) -/

def wordR (f7 : BitVec 7) (rs2 rs1 : Reg) (f3 : BitVec 3) (rd : Reg) (op : BitVec 7) : Word :=
  f7 ++ rs2 ++ rs1 ++ f3 ++ rd ++ op

def wordI (imm : BitVec 12) (rs1 : Reg) (f3 : BitVec 3) (rd : Reg) (op : BitVec 7) : Word :=
  imm ++ rs1 ++ f3 ++ rd ++ op

def wordS (imm : BitVec 12) (rs2 rs1 : Reg) (f3 : BitVec 3) (op : BitVec 7) : Word :=
  imm.extractLsb' 5 7 ++ rs2 ++ rs1 ++ f3 ++ imm.extractLsb' 0 5 ++ op

def wordB (off : BitVec 13) (rs2 rs1 : Reg) (f3 : BitVec 3) (op : BitVec 7) : Word :=
  off.extractLsb' 12 1 ++ off.extractLsb' 5 6 ++ rs2 ++ rs1 ++ f3 ++ off.extractLsb' 1 4
    ++ off.extractLsb' 11 1 ++ op

def wordU (imm20 : BitVec 20) (rd : Reg) (op : BitVec 7) : Word := imm20 ++ rd ++ op

def wordJ (off : BitVec 21) (rd : Reg) (op : BitVec 7) : Word :=
  off.extractLsb' 20 1 ++ off.extractLsb' 1 10 ++ off.extractLsb' 11 1 ++ off.extractLsb' 12 8 ++ rd ++ op

def wordRest (rest : BitVec 25) (op : BitVec 7) : Word := rest ++ op

/-- The word of an instruction. -/
def encode : Instr → Word
  | .add rd rs1 rs2 => wordR 0b0000000#7 rs2 rs1 0#3 rd 0b0110011#7
  | .sub rd rs1 rs2 => wordR 0b0100000#7 rs2 rs1 0#3 rd 0b0110011#7
  | .sll rd rs1 rs2 => wordR 0b0000000#7 rs2 rs1 1#3 rd 0b0110011#7
  | .slt rd rs1 rs2 => wordR 0b0000000#7 rs2 rs1 2#3 rd 0b0110011#7
  | .sltu rd rs1 rs2 => wordR 0b0000000#7 rs2 rs1 3#3 rd 0b0110011#7
  | .xor rd rs1 rs2 => wordR 0b0000000#7 rs2 rs1 4#3 rd 0b0110011#7
  | .srl rd rs1 rs2 => wordR 0b0000000#7 rs2 rs1 5#3 rd 0b0110011#7
  | .sra rd rs1 rs2 => wordR 0b0100000#7 rs2 rs1 5#3 rd 0b0110011#7
  | .or rd rs1 rs2 => wordR 0b0000000#7 rs2 rs1 6#3 rd 0b0110011#7
  | .and rd rs1 rs2 => wordR 0b0000000#7 rs2 rs1 7#3 rd 0b0110011#7
  | .mul rd rs1 rs2 => wordR 0b0000001#7 rs2 rs1 0#3 rd 0b0110011#7
  | .mulh rd rs1 rs2 => wordR 0b0000001#7 rs2 rs1 1#3 rd 0b0110011#7
  | .mulhsu rd rs1 rs2 => wordR 0b0000001#7 rs2 rs1 2#3 rd 0b0110011#7
  | .mulhu rd rs1 rs2 => wordR 0b0000001#7 rs2 rs1 3#3 rd 0b0110011#7
  | .div rd rs1 rs2 => wordR 0b0000001#7 rs2 rs1 4#3 rd 0b0110011#7
  | .divu rd rs1 rs2 => wordR 0b0000001#7 rs2 rs1 5#3 rd 0b0110011#7
  | .rem rd rs1 rs2 => wordR 0b0000001#7 rs2 rs1 6#3 rd 0b0110011#7
  | .remu rd rs1 rs2 => wordR 0b0000001#7 rs2 rs1 7#3 rd 0b0110011#7
  | .addi rd rs1 imm => wordI imm rs1 0#3 rd 0b0010011#7
  | .slti rd rs1 imm => wordI imm rs1 2#3 rd 0b0010011#7
  | .sltiu rd rs1 imm => wordI imm rs1 3#3 rd 0b0010011#7
  | .xori rd rs1 imm => wordI imm rs1 4#3 rd 0b0010011#7
  | .ori rd rs1 imm => wordI imm rs1 6#3 rd 0b0010011#7
  | .andi rd rs1 imm => wordI imm rs1 7#3 rd 0b0010011#7
  | .slli rd rs1 imm => wordI imm rs1 1#3 rd 0b0010011#7
  | .srli rd rs1 imm => wordI imm rs1 5#3 rd 0b0010011#7
  | .srai rd rs1 imm => wordI imm rs1 5#3 rd 0b0010011#7
  | .lui rd imm20 => wordU imm20 rd 0b0110111#7
  | .auipc rd imm20 => wordU imm20 rd 0b0010111#7
  | .jal rd off => wordJ off rd 0b1101111#7
  | .jalr rd rs1 imm funct3 => wordI imm rs1 funct3 rd 0b1100111#7
  | .beq rs1 rs2 off => wordB off rs2 rs1 0#3 0b1100011#7
  | .bne rs1 rs2 off => wordB off rs2 rs1 1#3 0b1100011#7
  | .blt rs1 rs2 off => wordB off rs2 rs1 4#3 0b1100011#7
  | .bge rs1 rs2 off => wordB off rs2 rs1 5#3 0b1100011#7
  | .bltu rs1 rs2 off => wordB off rs2 rs1 6#3 0b1100011#7
  | .bgeu rs1 rs2 off => wordB off rs2 rs1 7#3 0b1100011#7
  | .lb rd rs1 imm => wordI imm rs1 0#3 rd 0b0000011#7
  | .lh rd rs1 imm => wordI imm rs1 1#3 rd 0b0000011#7
  | .lw rd rs1 imm => wordI imm rs1 2#3 rd 0b0000011#7
  | .lbu rd rs1 imm => wordI imm rs1 4#3 rd 0b0000011#7
  | .lhu rd rs1 imm => wordI imm rs1 5#3 rd 0b0000011#7
  | .sb rs2 rs1 imm => wordS imm rs2 rs1 0#3 0b0100011#7
  | .sh rs2 rs1 imm => wordS imm rs2 rs1 1#3 0b0100011#7
  | .sw rs2 rs1 imm => wordS imm rs2 rs1 2#3 0b0100011#7
  | .fence rd rs1 imm => wordI imm rs1 0#3 rd 0b0001111#7
  | .fenceI rd rs1 imm => wordI imm rs1 1#3 rd 0b0001111#7
  | .ecall => 0x00000073#32
  | .ebreak => 0x00100073#32
  | .csrrw rd csr rs1 => wordI csr rs1 1#3 rd 0b1110011#7
  | .csrrs rd csr rs1 => wordI csr rs1 2#3 rd 0b1110011#7
  | .csrrc rd csr rs1 => wordI csr rs1 3#3 rd 0b1110011#7
  | .csrrwi rd csr uimm => wordI csr uimm 5#3 rd 0b1110011#7
  | .csrrsi rd csr uimm => wordI csr uimm 6#3 rd 0b1110011#7
  | .csrrci rd csr uimm => wordI csr uimm 7#3 rd 0b1110011#7
  | .mret => 0x30200073#32
  | .sret => 0x10200073#32
  | .wfi => 0x10500073#32
  | .sfenceVma rs1 rs2 => wordR 0b0001001#7 rs2 rs1 0#3 0#5 0b1110011#7
  | .lrW rd rs1 aqrl => wordR (0b00010#5 ++ aqrl) 0#5 rs1 2#3 rd 0b0101111#7
  | .scW rd rs1 rs2 aqrl => wordR (0b00011#5 ++ aqrl) rs2 rs1 2#3 rd 0b0101111#7
  | .amo rest => wordRest rest 0b0101111#7
  | .loadFp rest => wordRest rest 0b0000111#7
  | .storeFp rest => wordRest rest 0b0100111#7
  | .opFp rest => wordRest rest 0b1010011#7
  | .fmadd rest => wordRest rest 0b1000011#7
  | .fmsub rest => wordRest rest 0b1000111#7
  | .fnmsub rest => wordRest rest 0b1001011#7
  | .fnmadd rest => wordRest rest 0b1001111#7
  | .op32 rest => wordRest rest 0b0111011#7
  | .opImm32 rest => wordRest rest 0b0011011#7
  | .custom0 rest => wordRest rest 0b0001011#7
  | .custom1 rest => wordRest rest 0b0101011#7
  | .custom2 rest => wordRest rest 0b1011011#7
  | .custom3 rest => wordRest rest 0b1111011#7
  | .anyOther w => w

/-! ## The rows of the opcode table -/

/-- The mask of the instruction's row in opcode_table.json: the bits that select the row. -/
def tableMask : Instr → Word
  | .add _ _ _ | .sub _ _ _ | .sll _ _ _ | .slt _ _ _ | .sltu _ _ _ | .xor _ _ _ | .srl _ _ _
  | .sra _ _ _ | .or _ _ _ | .and _ _ _ | .mul _ _ _ | .mulh _ _ _ | .mulhsu _ _ _ | .mulhu _ _ _
  | .div _ _ _ | .divu _ _ _ | .rem _ _ _ | .remu _ _ _ => 0xFE00707F#32
  | .addi _ _ _ | .slti _ _ _ | .sltiu _ _ _ | .xori _ _ _ | .ori _ _ _ | .andi _ _ _ | .slli _ _ _
  | .beq _ _ _ | .bne _ _ _ | .blt _ _ _ | .bge _ _ _ | .bltu _ _ _ | .bgeu _ _ _ | .lb _ _ _
  | .lh _ _ _ | .lw _ _ _ | .lbu _ _ _ | .lhu _ _ _ | .sb _ _ _ | .sh _ _ _ | .sw _ _ _ | .fence _ _ _
  | .fenceI _ _ _ | .csrrw _ _ _ | .csrrs _ _ _ | .csrrc _ _ _ | .csrrwi _ _ _ | .csrrsi _ _ _
  | .csrrci _ _ _ => 0x0000707F#32
  | .srli _ _ _ | .srai _ _ _ => 0x4000707F#32
  | .lui _ _ | .auipc _ _ | .jal _ _ | .jalr _ _ _ _ | .amo _ | .loadFp _ | .storeFp _ | .opFp _
  | .fmadd _ | .fmsub _ | .fnmsub _ | .fnmadd _ | .op32 _ | .opImm32 _ | .custom0 _ | .custom1 _
  | .custom2 _ | .custom3 _ => 0x0000007F#32
  | .ecall | .ebreak | .mret | .sret | .wfi => 0xFFFFFFFF#32
  | .sfenceVma _ _ => 0xFE007FFF#32
  | .lrW _ _ _ => 0xF9F0707F#32
  | .scW _ _ _ _ => 0xF800707F#32
  | .anyOther _ => 0x00000000#32

/-- The match of the instruction's row in opcode_table.json: the values of those bits. -/
def tableMatch : Instr → Word
  | .add _ _ _ => 0x00000033#32
  | .sub _ _ _ => 0x40000033#32
  | .sll _ _ _ => 0x00001033#32
  | .slt _ _ _ => 0x00002033#32
  | .sltu _ _ _ => 0x00003033#32
  | .xor _ _ _ => 0x00004033#32
  | .srl _ _ _ => 0x00005033#32
  | .sra _ _ _ => 0x40005033#32
  | .or _ _ _ => 0x00006033#32
  | .and _ _ _ => 0x00007033#32
  | .mul _ _ _ => 0x02000033#32
  | .mulh _ _ _ => 0x02001033#32
  | .mulhsu _ _ _ => 0x02002033#32
  | .mulhu _ _ _ => 0x02003033#32
  | .div _ _ _ => 0x02004033#32
  | .divu _ _ _ => 0x02005033#32
  | .rem _ _ _ => 0x02006033#32
  | .remu _ _ _ => 0x02007033#32
  | .addi _ _ _ => 0x00000013#32
  | .slti _ _ _ => 0x00002013#32
  | .sltiu _ _ _ => 0x00003013#32
  | .xori _ _ _ => 0x00004013#32
  | .ori _ _ _ => 0x00006013#32
  | .andi _ _ _ => 0x00007013#32
  | .slli _ _ _ => 0x00001013#32
  | .srli _ _ _ => 0x00005013#32
  | .srai _ _ _ => 0x40005013#32
  | .lui _ _ => 0x00000037#32
  | .auipc _ _ => 0x00000017#32
  | .jal _ _ => 0x0000006F#32
  | .jalr _ _ _ _ => 0x00000067#32
  | .beq _ _ _ => 0x00000063#32
  | .bne _ _ _ => 0x00001063#32
  | .blt _ _ _ => 0x00004063#32
  | .bge _ _ _ => 0x00005063#32
  | .bltu _ _ _ => 0x00006063#32
  | .bgeu _ _ _ => 0x00007063#32
  | .lb _ _ _ => 0x00000003#32
  | .lh _ _ _ => 0x00001003#32
  | .lw _ _ _ => 0x00002003#32
  | .lbu _ _ _ => 0x00004003#32
  | .lhu _ _ _ => 0x00005003#32
  | .sb _ _ _ => 0x00000023#32
  | .sh _ _ _ => 0x00001023#32
  | .sw _ _ _ => 0x00002023#32
  | .fence _ _ _ => 0x0000000F#32
  | .fenceI _ _ _ => 0x0000100F#32
  | .ecall => 0x00000073#32
  | .ebreak => 0x00100073#32
  | .csrrw _ _ _ => 0x00001073#32
  | .csrrs _ _ _ => 0x00002073#32
  | .csrrc _ _ _ => 0x00003073#32
  | .csrrwi _ _ _ => 0x00005073#32
  | .csrrsi _ _ _ => 0x00006073#32
  | .csrrci _ _ _ => 0x00007073#32
  | .mret => 0x30200073#32
  | .sret => 0x10200073#32
  | .wfi => 0x10500073#32
  | .sfenceVma _ _ => 0x12000073#32
  | .lrW _ _ _ => 0x1000202F#32
  | .scW _ _ _ _ => 0x1800202F#32
  | .amo _ => 0x0000002F#32
  | .loadFp _ => 0x00000007#32
  | .storeFp _ => 0x00000027#32
  | .opFp _ => 0x00000053#32
  | .fmadd _ => 0x00000043#32
  | .fmsub _ => 0x00000047#32
  | .fnmsub _ => 0x0000004B#32
  | .fnmadd _ => 0x0000004F#32
  | .op32 _ => 0x0000003B#32
  | .opImm32 _ => 0x0000001B#32
  | .custom0 _ => 0x0000000B#32
  | .custom1 _ => 0x0000002B#32
  | .custom2 _ => 0x0000005B#32
  | .custom3 _ => 0x0000007B#32
  | .anyOther _ => 0x00000000#32

end Sys2Proof
end

