-- ==== Sys2Proof/Config.lean ====
section
/-! DEFINITION. The implementation parameters of 00_scope.md R8, as plain data. The source gives no value
for a parameter marked OPEN there, so the model takes them all as data (State.params) and nothing but the
reset state names particular values. -/

namespace Sys2Proof

/-- The OPEN parameters of R8. `memLog` is the base-2 logarithm of MEM_SIZE, a power of two; a `k…` field is
the offset K of a memory-mapped byte, which lives at `MEM_SIZE − K` (10_state.md R50). -/
structure Params where
  memLog      : Nat
  irqDrain    : Nat
  irqHandler  : Word
  irqLink     : Reg
  causeKbd    : Byte
  causeUart   : Byte
  causeTimer  : Byte
  kKbdIn      : Nat
  kUartTx     : Nat
  kUartRx     : Nat
  kIrqEn      : Nat
  kIrqHandled : Nat
  kIrqVec     : Nat
  kTimer      : Nat
  kDataReady  : Nat
  deriving DecidableEq, Repr

/-- MEM_SIZE (R8, 20_memory.md R70). -/
def Params.memSize (p : Params) : Nat := 2 ^ p.memLog

/-- PRED_SIZE = MEM_SIZE (R8; decision D12). -/
def Params.predSize (p : Params) : Nat := p.memSize

/-- The eight offsets K of R8. -/
def Params.offsets (p : Params) : List Nat :=
  [p.kKbdIn, p.kUartTx, p.kUartRx, p.kIrqEn, p.kIrqHandled, p.kIrqVec, p.kTimer, p.kDataReady]

/-- The legal ranges of R8: 16 ≤ MEM_SIZE ≤ 2^32, IRQ_DRAIN_CYCLES ≥ 1, IRQ_LINK_REG in 1..31, causes pairwise
distinct, offsets distinct and in 1..MEM_SIZE. -/
def Params.legal (p : Params) : Bool :=
  decide (4 ≤ p.memLog) && decide (p.memLog ≤ 32) && decide (1 ≤ p.irqDrain) && decide (p.irqLink ≠ 0#5)
    && decide (p.causeKbd ≠ p.causeUart) && decide (p.causeKbd ≠ p.causeTimer)
    && decide (p.causeUart ≠ p.causeTimer)
    && p.offsets.all (fun k => decide (1 ≤ k) && decide (k ≤ p.memSize))
    && decide p.offsets.Nodup

/-- The parameter values of 95_test_vectors.md section 0. DESIGN CHOICE (notes/assumptions/2.md): the spec says
they are chosen for its vectors only; the model's reset state needs some legal values and takes these. -/
def Params.vectors : Params where
  memLog      := 12
  irqDrain    := 3
  irqHandler  := 0x100#32
  irqLink     := 31#5
  causeKbd    := 1#8
  causeUart   := 2#8
  causeTimer  := 3#8
  kKbdIn      := 1
  kUartTx     := 2
  kUartRx     := 3
  kIrqEn      := 4
  kIrqHandled := 5
  kIrqVec     := 6
  kTimer      := 7
  kDataReady  := 8

end Sys2Proof
end

