-- ==== Sys2Proof/Machine/State.lean ====
section
/-! DEFINITION. The machine's state (10_state.md R54), plain data: every register, pipeline register, predictor
table, interrupt flag and memory byte the spec names, the parameters it leaves OPEN, and the host inputs still to
come. Reset is 70_reset_and_hazards.md R503. -/

namespace Sys2Proof.Machine

/-- IF/ID (R42). -/
structure IfId where
  word : Word
  pc   : Word
  pred : Word
  deriving DecidableEq, Repr

/-- ID/EX (R43). -/
structure IdEx where
  inst : Inst
  pc   : Word
  pred : Word
  a    : Word
  b    : Word
  irqj : Bool
  deriving DecidableEq, Repr

/-- EX/MEM (R44). -/
structure ExMem where
  inst : Inst
  pc   : Word
  alu  : Word
  b    : Word
  deriving DecidableEq, Repr

/-- MEM/WB (R45). -/
structure MemWb where
  inst  : Inst
  pc    : Word
  alu   : Word
  mdata : Word
  deriving DecidableEq, Repr

/-- Memory: the listed bytes at strictly rising addresses, none 0; an unlisted address reads 0, the value
`load_program` fills memory with (R501). -/
abbrev Memory := List Host.Cell

/-- One atomic action of the host at a cycle boundary: the rows of 60_exceptions.md R437. `timerEvent` is
`notify_timer()`, `clock` is the host's `step()`, one cycle. -/
inductive HostAction where
  | keypress (b : Byte)
  | uartKeypress (b : Byte)
  | timerEvent
  | timerTick
  | uartDrain
  | clock
  | start
  | stop
  | reset
  | loadProgram (memLog : Nat) (image : List Byte)
  deriving DecidableEq, Repr

/-- What a step with no host action waiting does (00_scope.md R6, 70_reset_and_hazards.md R505, R507): `instruction`, one
instruction as a whole; `cycle`, one cycle, the clock running; `halted`, nothing, the clock stopped and all state kept.
DESIGN CHOICE (notes/assumptions/1.md, 19.md): the model's own form of the two levels and of the host's clock;
`start()` sets `cycle`, `stop()` sets `halted`. -/
inductive Pace where
  | instruction
  | cycle
  | halted
  deriving DecidableEq, Repr

/-- Why a step stops with a fault. The core itself has none (60_exceptions.md R400). -/
inductive Fault where
  /-- Raised by `step` when `params` break the legal ranges of 00_scope.md R8; safe: the spec describes no machine
  with such parameters. -/
  | illegalParameters
  deriving DecidableEq, Repr

/-- Why a step is refused. -/
inductive Refusal where
  /-- An arm of `exec` with no meaning yet. No arm is left so. Safe. -/
  | notModelled (mnemonic : String)
  /-- Raised by `cycle` and `runInstruction` when a word of a reserved cell is issued (30_encoding.md R120,
  50_pipeline.md R333); safe: nothing is claimed of the hardware past that point. -/
  | reservedEncoding (cell : Reserved)
  /-- Raised by `load_program` for an image longer than memory (R501, decision D34); safe. -/
  | imageTooLarge
  /-- Raised by `load_program` for a MEM_SIZE with which the parameters are not legal (R8, R501); safe. -/
  | illegalMemorySize
  deriving DecidableEq, Repr

/-- The state. -/
structure State where
  /-- x0..x31 (R30); entry 0 is never read or written (R31). -/
  regs : Vector Word 32
  /-- Has WriteBack written the register since reset (R35)? -/
  written : Vector Bool 32
  /-- Has a register been read that nothing has written since reset (R35, R402: kept once set)? -/
  unwrittenRead : Bool
  /-- `pc_f`, the current PC (R36, R38). -/
  pcF : Word
  /-- `npc_f`, the predicted next PC (R36). -/
  npcF : Word
  ifid : IfId
  idex : IdEx
  exmem : ExMem
  memwb : MemWb
  /-- `ctr[]` (R47); an unlisted entry is 0. -/
  ctr : List (Nat × BitVec 2)
  /-- `hist[]` (R47); an unlisted entry is 0. -/
  hist : List (Nat × BitVec 8)
  /-- `block_irq` (R48). -/
  blockIrq : Bool
  /-- `irq_cnt` (R48). -/
  irqCnt : Nat
  /-- `irq_active` (R48). -/
  irqActive : Bool
  /-- `ret_addr` (R48). -/
  retAddr : Word
  /-- `M[]` (R49). -/
  mem : Memory
  /-- The host's UART output buffer, as the drain steps of R435 filled it. -/
  uartOut : List Byte
  /-- The parameters of R8, fixed but for MEM_SIZE, which a load may choose anew (R501). -/
  params : Params
  /-- The host actions still to come, first one first: the free schedule of R430 as plain data. -/
  inbox : List HostAction
  /-- What an idle step does (R6, 70_reset_and_hazards.md R505). -/
  pace : Pace
  deriving DecidableEq, Repr

/-- IF/ID with the canonical NOP, from which Fetch goes on at `pc` (the reset content of R503 at pc 0). -/
def IfId.restart (pc : Word) : IfId := { word := nopWord, pc := pc, pred := pc }

/-- ID/EX at reset (R503). -/
def IdEx.empty : IdEx := { inst := Inst.bubble, pc := 0#32, pred := 0#32, a := 0#32, b := 0#32, irqj := false }

/-- EX/MEM at reset (R503). -/
def ExMem.empty : ExMem := { inst := Inst.bubble, pc := 0#32, alu := 0#32, b := 0#32 }

/-- MEM/WB at reset (R503). -/
def MemWb.empty : MemWb := { inst := Inst.bubble, pc := 0#32, alu := 0#32, mdata := 0#32 }

/-- The state right after reset over a zero-filled memory (R501, R503), for any parameters. DESIGN CHOICE
(notes/assumptions/3.md): the spec leaves x1..x31 unspecified; the model holds 0 there and marks them unwritten. -/
def State.initial (p : Params) : State where
  regs          := Vector.replicate 32 0#32
  written       := Vector.replicate 32 false
  unwrittenRead := false
  pcF           := 0#32
  npcF          := 0#32
  ifid          := IfId.restart 0#32
  idex          := IdEx.empty
  exmem         := ExMem.empty
  memwb         := MemWb.empty
  ctr           := []
  hist          := []
  blockIrq      := false
  irqCnt        := 0
  irqActive     := false
  retAddr       := 0#32
  mem           := []
  uartOut       := []
  params        := p
  inbox         := []
  pace          := .instruction

/-- The machine right after reset, with the parameters of 95_test_vectors.md section 0
(notes/assumptions/2.md). -/
def State.reset : State := State.initial Params.vectors

end Sys2Proof.Machine
end

