-- ==== Sys2Proof/Machine/Ops.lean ====
section
/-! DEFINITION. The named operations over memory and registers (10_state.md, 20_memory.md), the step's view of
Fetch, and the machine's one exception: the interrupt entry (60_exceptions.md R414, R417). The return from it is the
ordinary JALR (R420), so it has no operation of its own. -/

namespace Sys2Proof.Machine

/-! ## Sparse arrays: memory and the predictor's tables -/

/-- The value at key `a`; an unlisted key reads `d`. -/
def sparseGet {α : Type} (d : α) : List (Nat × α) → Nat → α
  | [], _ => d
  | (k, v) :: m, a => if k = a then v else sparseGet d m a

/-- Insert an entry before the first larger key. -/
def sparseInsert {α : Type} (a : Nat) (v : α) : List (Nat × α) → List (Nat × α)
  | [] => [(a, v)]
  | (k, w) :: m => if a < k then (a, v) :: (k, w) :: m else (k, w) :: sparseInsert a v m

/-- Write the value at key `a`; writing what an unlisted key reads removes the entry. -/
def sparseSet {α : Type} [DecidableEq α] (d : α) (m : List (Nat × α)) (a : Nat) (v : α) : List (Nat × α) :=
  let rest := m.filter (fun e => e.1 ≠ a)
  if v = d then rest else sparseInsert a v rest

/-- The canonical form: keys strictly rising and below `size`, no entry equal to `d`. -/
def sparseWf {α : Type} [DecidableEq α] (d : α) (size : Nat) (m : List (Nat × α)) : Bool :=
  decide (m.Pairwise (fun x y => x.1 < y.1)) && m.all (fun e => decide (e.1 < size) && decide (e.2 ≠ d))

/-- Memory's canonical form, for a memory of `size` bytes. -/
def Memory.wf (size : Nat) (m : Memory) : Bool := sparseWf 0#8 size m

/-! ## Memory (20_memory.md R71 to R76): masked, byte by byte, little-endian, no access fails -/

/-- `addr & (MEM_SIZE − 1)` (R71). -/
def maskAddr (p : Params) (a : Word) : Nat := a.toNat % p.memSize

def readByte (p : Params) (m : Memory) (a : Word) : Byte := sparseGet 0#8 m (maskAddr p a)

def writeByte (p : Params) (m : Memory) (a : Word) (v : Byte) : Memory := sparseSet 0#8 m (maskAddr p a) v

/-- `MemRead(a, 2)` (R72). -/
def readHalf (p : Params) (m : Memory) (a : Word) : BitVec 16 := readByte p m (a + 1#32) ++ readByte p m a

/-- `MemRead(a, 4)` (R72). -/
def readWord (p : Params) (m : Memory) (a : Word) : Word :=
  readByte p m (a + 3#32) ++ readByte p m (a + 2#32) ++ readByte p m (a + 1#32) ++ readByte p m a

/-- `MemWrite(a, 2, v)` (R73). -/
def writeHalf (p : Params) (m : Memory) (a : Word) (v : BitVec 16) : Memory :=
  writeByte p (writeByte p m a (v.extractLsb' 0 8)) (a + 1#32) (v.extractLsb' 8 8)

/-- `MemWrite(a, 4, v)` (R73). -/
def writeWord (p : Params) (m : Memory) (a : Word) (v : Word) : Memory :=
  writeByte p (writeByte p (writeByte p (writeByte p m a (v.extractLsb' 0 8)) (a + 1#32) (v.extractLsb' 8 8))
    (a + 2#32) (v.extractLsb' 16 8)) (a + 3#32) (v.extractLsb' 24 8)

/-- The loaded value by the load's funct3 (50_pipeline.md R311). A reserved funct3 never reaches the Memory stage
(R333). -/
def loadValue (p : Params) (m : Memory) (f3 : BitVec 3) (a : Word) : Word :=
  if f3 = 0#3 then (readByte p m a).signExtend 32
  else if f3 = 1#3 then (readHalf p m a).signExtend 32
  else if f3 = 2#3 then readWord p m a
  else if f3 = 4#3 then (readByte p m a).zeroExtend 32
  else if f3 = 5#3 then (readHalf p m a).zeroExtend 32
  else 0#32

/-- The memory after a store, by its funct3 (R311). A reserved funct3 never reaches the Memory stage (R333). -/
def storeValue (p : Params) (m : Memory) (f3 : BitVec 3) (a v : Word) : Memory :=
  if f3 = 0#3 then writeByte p m a (v.extractLsb' 0 8)
  else if f3 = 1#3 then writeHalf p m a (v.extractLsb' 0 16)
  else if f3 = 2#3 then writeWord p m a v
  else m

/-- The byte of a memory-mapped register, at `MEM_SIZE − K` (10_state.md R50). -/
def State.mmio (s : State) (k : Nat) : Byte := sparseGet 0#8 s.mem (s.params.memSize - k)

/-- Store a memory-mapped byte. -/
def State.setMmio (s : State) (k : Nat) (v : Byte) : State :=
  { s with mem := sparseSet 0#8 s.mem (s.params.memSize - k) v }

/-- The bytes of a program image from address `a` on, as memory's canonical form holds them (R501). -/
def imageCells (a : Nat) : List Byte → Memory
  | [] => []
  | b :: bs => if b = 0#8 then imageCells (a + 1) bs else (a, b) :: imageCells (a + 1) bs

/-! ## General registers (10_state.md R30 to R35) -/

/-- Register read: x0 reads 0 (R31). -/
def State.readReg (s : State) (r : Reg) : Word := if r = 0#5 then 0#32 else s.regs[r.toNat]'(r.isLt)

/-- Register write: a write to x0 is not observed (R31); any other marks the register written (R35). -/
def State.writeReg (s : State) (r : Reg) (v : Word) : State :=
  if r = 0#5 then s
  else { s with regs := s.regs.set r.toNat v r.isLt, written := s.written.set r.toNat true r.isLt }

/-- Does reading the register read the value it came out of reset with (R35)? -/
def State.unwritten (s : State) (r : Reg) : Bool := r ≠ 0#5 && !(s.written[r.toNat]'(r.isLt))

/-- Report the read of a register that nothing has written since reset. DESIGN CHOICE (notes/assumptions/3.md):
R35 makes such a read a fault of the run; this model goes on with the register's reset value and keeps the report. -/
def State.noteRead (s : State) (r : Reg) : State := { s with unwrittenRead := s.unwrittenRead || s.unwritten r }

/-- The host's register snapshot (R33, 60_exceptions.md R443). -/
def State.snapshot (s : State) : List Word := (List.range 32).map (fun n => s.readReg (BitVec.ofNat 5 n))

/-- The PC the host observes (R38). -/
def State.observedPc (s : State) : Word := s.pcF

/-! ## Fetch as the instruction level sees it (50_pipeline.md R350) -/

/-- The word at the PC (20_memory.md R80). -/
def State.fetchWord (s : State) : Word := readWord s.params s.mem s.pcF

/-- The next instruction is the one at `pc`: IF/ID holds no instruction and Fetch goes on at `pc`, as it does at 0
after reset (R503, R504). -/
def State.setPc (s : State) (pc : Word) : State :=
  { s with pcF := pc, npcF := pc, ifid := IfId.restart pc }

/-- No instruction in flight, the next one at `pc`. -/
def State.restart (s : State) (pc : Word) : State :=
  { s.setPc pc with idex := IdEx.empty, exmem := ExMem.empty, memwb := MemWb.empty }

/-- Absent a control transfer the next instruction is at `pc + 4` (00_scope.md R11). -/
def State.advance (s : State) : State := s.setPc (s.pcF + 4#32)

/-! ## The interrupt entry (60_exceptions.md R414, R417) -/

/-- What the IRQ jump does as a whole: the link register receives the return address, the next instruction is the
one at IRQ_HANDLER_ADDR, and the countdown is over. Nothing else is saved or changed (R417). -/
def State.takeInterrupt (s : State) : State :=
  { (s.writeReg s.params.irqLink s.retAddr).setPc s.params.irqHandler with irqActive := false, irqCnt := 0 }

end Sys2Proof.Machine
end

