-- ==== Sys2Proof/Machine/Operands.lean ====
section
/-! DEFINITION. Operand forms (30_encoding.md R112) and the values the ALU computes from them (40_integer.md,
41_muldiv.md, 42_control.md R200), one function per operation, shared by the instruction level and by the
pipeline's Execute stage. -/

namespace Sys2Proof.Machine

/-! ## Operand forms -/

/-- The shift amount: bits [4:0] of the second operand (R112, decision D7). -/
def shamt (b : Word) : Nat := (b.extractLsb' 0 5).toNat

/-- Base plus displacement (43_loadstore.md R230). -/
def effAddr (base : Word) (imm : BitVec 12) : Word := base + sext12 imm

/-- 1 or 0, the result of a comparison (R145, R146). -/
def boolWord (c : Bool) : Word := if c then 1#32 else 0#32

/-! ## Integer operations (R142 to R151) -/

def aluAdd (a b : Word) : Word := a + b
def aluSub (a b : Word) : Word := a - b
def aluSll (a b : Word) : Word := a <<< shamt b
def aluSlt (a b : Word) : Word := boolWord (decide (a.toInt < b.toInt))
def aluSltu (a b : Word) : Word := boolWord (decide (a.toNat < b.toNat))
def aluXor (a b : Word) : Word := a ^^^ b
def aluSrl (a b : Word) : Word := a >>> shamt b
def aluSra (a b : Word) : Word := a.sshiftRight (shamt b)
def aluOr (a b : Word) : Word := a ||| b
def aluAnd (a b : Word) : Word := a &&& b

/-! ## Multiply: the exact 64-bit product, one half kept (R181 to R185) -/

/-- Bits 63..32 of an exact product. -/
def upperHalf (n : Int) : Word := (BitVec.ofInt 64 n).extractLsb' 32 32

def aluMul (a b : Word) : Word := BitVec.ofInt 32 (a.toInt * b.toInt)
def aluMulh (a b : Word) : Word := upperHalf (a.toInt * b.toInt)
def aluMulhsu (a b : Word) : Word := upperHalf (a.toInt * (b.toNat : Int))
def aluMulhu (a b : Word) : Word := upperHalf ((a.toNat : Int) * (b.toNat : Int))

/-! ## Divide: rounding toward zero, no trap (R181, R186 to R189) -/

def aluDiv (a b : Word) : Word :=
  if b = 0#32 then 0xFFFFFFFF#32
  else if a = int32Min ∧ b = 0xFFFFFFFF#32 then int32Min
  else BitVec.ofInt 32 (a.toInt.tdiv b.toInt)

def aluDivu (a b : Word) : Word :=
  if b = 0#32 then 0xFFFFFFFF#32 else BitVec.ofNat 32 (a.toNat / b.toNat)

def aluRem (a b : Word) : Word :=
  if b = 0#32 then a
  else if a = int32Min ∧ b = 0xFFFFFFFF#32 then 0#32
  else BitVec.ofInt 32 (a.toInt - b.toInt * a.toInt.tdiv b.toInt)

def aluRemu (a b : Word) : Word :=
  if b = 0#32 then a else BitVec.ofNat 32 (a.toNat % b.toNat)

/-! ## Next PCs (42_control.md R200) -/

/-- The JALR target: bit 0 of the sum cleared (R205). -/
def jalrTarget (base imm : Word) : Word := (base + imm) &&& 0xFFFFFFFE#32

/-- The ALU output of a branch: the next PC (R200). -/
def branchTarget (taken : Bool) (pc off : Word) : Word := if taken then pc + off else pc + 4#32

end Sys2Proof.Machine
end

