-- ==== Sys2Proof/Machine/Flags.lean ====
section
/-! DEFINITION. The core has no flags (10_state.md R39): a conditional branch compares two registers directly. These
are its six conditions (42_control.md R206 to R211). -/

namespace Sys2Proof.Machine

def condEq (a b : Word) : Bool := decide (a = b)
def condNe (a b : Word) : Bool := decide (a ≠ b)
def condLt (a b : Word) : Bool := decide (a.toInt < b.toInt)
def condGe (a b : Word) : Bool := decide (a.toInt ≥ b.toInt)
def condLtu (a b : Word) : Bool := decide (a.toNat < b.toNat)
def condGeu (a b : Word) : Bool := decide (a.toNat ≥ b.toNat)

/-- The condition a branch's funct3 selects (30_encoding.md R117). A reserved funct3 is never issued (R120). -/
def branchCond (f3 : BitVec 3) (a b : Word) : Bool :=
  if f3 = 0#3 then condEq a b
  else if f3 = 1#3 then condNe a b
  else if f3 = 4#3 then condLt a b
  else if f3 = 5#3 then condGe a b
  else if f3 = 6#3 then condLtu a b
  else if f3 = 7#3 then condGeu a b
  else false

end Sys2Proof.Machine
end

