-- ==== Sys2Proof/Machine/Predictor.lean ====
section
/-! DEFINITION. The branch predictor (50_pipeline.md R340 to R343). -/

namespace Sys2Proof.Machine

/-- The base index `addr & (PRED_SIZE − 1)` (R340). -/
def predBase (p : Params) (a : Word) : Nat := a.toNat % p.predSize

/-- The counter index: the history's low 2 bits select one of four counters (R340). -/
def predIndex (p : Params) (hist : List (Nat × BitVec 8)) (a : Word) : Nat :=
  (predBase p a + (sparseGet 0#8 hist (predBase p a)).toNat % 4) % p.predSize

/-- `predict(addr)` (R341). -/
def predict (p : Params) (ctr : List (Nat × BitVec 2)) (hist : List (Nat × BitVec 8)) (a : Word) : Bool :=
  decide ((sparseGet 0#2 ctr (predIndex p hist a)).toNat ≥ 2)

/-- One step of a 2-bit saturating counter (R342). -/
def bumpCounter (taken : Bool) (c : BitVec 2) : BitVec 2 :=
  if taken then (if c = 3#2 then 3#2 else c + 1#2) else (if c = 0#2 then 0#2 else c - 1#2)

/-- The counters after `update(addr, taken)`, indexed by the history before it (R342). -/
def updateCtr (p : Params) (ctr : List (Nat × BitVec 2)) (hist : List (Nat × BitVec 8)) (a : Word)
    (taken : Bool) : List (Nat × BitVec 2) :=
  let j := predIndex p hist a
  sparseSet 0#2 ctr j (bumpCounter taken (sparseGet 0#2 ctr j))

/-- The histories after `update(addr, taken)`: the outcome shifted into the low bit (R342). -/
def updateHist (p : Params) (hist : List (Nat × BitVec 8)) (a : Word) (taken : Bool) : List (Nat × BitVec 8) :=
  let i := predBase p a
  sparseSet 0#8 hist i ((sparseGet 0#8 hist i <<< 1) ||| (if taken then 1#8 else 0#8))

/-- `update_table(pc, taken)` on the state (R318). -/
def State.updatePredictor (s : State) (pc : Word) (taken : Bool) : State :=
  { s with ctr := updateCtr s.params s.ctr s.hist pc taken, hist := updateHist s.params s.hist pc taken }

end Sys2Proof.Machine
end

