-- ==== Sys2Proof/Machine/Forms.lean ====
section
/-! DEFINITION. The shapes the instructions share: each is one whole instruction at the architectural level
(00_scope.md R6 (a), R11), given the value or condition that tells its kind apart. Operands are read before anything
is written (40_integer.md R141). -/

namespace Sys2Proof.Machine

/-- What an instruction answers. -/
abbrev Result := Host.Outcome State Fault Refusal

/-- `x[rd] <- f(x[rs1], x[rs2])` (R-type). -/
def State.opRegister (s : State) (f : Word → Word → Word) (rd rs1 rs2 : Reg) : State :=
  let v := f (s.readReg rs1) (s.readReg rs2)
  (((s.noteRead rs1).noteRead rs2).writeReg rd v).advance

/-- `x[rd] <- f(x[rs1], imm)` (I-type arithmetic). -/
def State.opImmediate (s : State) (f : Word → Word → Word) (rd rs1 : Reg) (imm : Word) : State :=
  let v := f (s.readReg rs1) imm
  ((s.noteRead rs1).writeReg rd v).advance

/-- `x[rd] <- v`, no register read (U-type). -/
def State.opUpper (s : State) (rd : Reg) (v : Word) : State := (s.writeReg rd v).advance

/-- `t; x[rd] <- pc + 4; pc <- t` (JAL, JALR), the target being computed before the link is written (R205). -/
def State.opJump (s : State) (rd : Reg) (target : Word) : State :=
  (s.writeReg rd (s.pcF + 4#32)).setPc target

/-- `pc <- taken ? pc + off : pc + 4`, the outcome recorded by the predictor (R206 to R211, 50_pipeline.md R318). -/
def State.opBranch (s : State) (cond : Word → Word → Bool) (rs1 rs2 : Reg) (off : BitVec 13) : State :=
  let taken := cond (s.readReg rs1) (s.readReg rs2)
  (((s.noteRead rs1).noteRead rs2).updatePredictor s.pcF taken).setPc (branchTarget taken s.pcF (sext13 off))

/-- `x[rd] <- ext(MemRead(x[rs1] + imm, n))`, the width and extension by funct3 (R234 to R238). -/
def State.opLoad (s : State) (f3 : BitVec 3) (rd rs1 : Reg) (imm : BitVec 12) : State :=
  let v := loadValue s.params s.mem f3 (effAddr (s.readReg rs1) imm)
  ((s.noteRead rs1).writeReg rd v).advance

/-- `MemWrite(x[rs1] + imm, n, x[rs2])`, the width by funct3 (R239 to R241). -/
def State.opStore (s : State) (f3 : BitVec 3) (rs2 rs1 : Reg) (imm : BitVec 12) : State :=
  let m := storeValue s.params s.mem f3 (effAddr (s.readReg rs1) imm) (s.readReg rs2)
  State.advance { (s.noteRead rs1).noteRead rs2 with mem := m }

/-- `pc <- pc + 4` and nothing else (44_system_unallocated.md R250). -/
def State.opNop (s : State) : State := s.advance

end Sys2Proof.Machine
end

