-- ==== Sys2Proof/Machine/Control.lean ====
section
/-! DEFINITION. The control-transfer instructions (42_control.md), one meaning each. -/

namespace Sys2Proof.Machine

/-- JAL (R204). -/
def execJal (rd : Reg) (off : BitVec 21) (s : State) : Result := .next (s.opJump rd (s.pcF + sext21 off))

/-- JALR (R205): funct3 is not inspected (30_encoding.md R118); the target uses the old `x[rs1]`. -/
def execJalr (rd rs1 : Reg) (imm : BitVec 12) (s : State) : Result :=
  .next ((s.noteRead rs1).opJump rd (jalrTarget (s.readReg rs1) (sext12 imm)))

/-- BEQ (R206). -/
def execBeq (rs1 rs2 : Reg) (off : BitVec 13) (s : State) : Result := .next (s.opBranch condEq rs1 rs2 off)

/-- BNE (R207). -/
def execBne (rs1 rs2 : Reg) (off : BitVec 13) (s : State) : Result := .next (s.opBranch condNe rs1 rs2 off)

/-- BLT (R208). -/
def execBlt (rs1 rs2 : Reg) (off : BitVec 13) (s : State) : Result := .next (s.opBranch condLt rs1 rs2 off)

/-- BGE (R209). -/
def execBge (rs1 rs2 : Reg) (off : BitVec 13) (s : State) : Result := .next (s.opBranch condGe rs1 rs2 off)

/-- BLTU (R210). -/
def execBltu (rs1 rs2 : Reg) (off : BitVec 13) (s : State) : Result := .next (s.opBranch condLtu rs1 rs2 off)

/-- BGEU (R211). -/
def execBgeu (rs1 rs2 : Reg) (off : BitVec 13) (s : State) : Result := .next (s.opBranch condGeu rs1 rs2 off)

end Sys2Proof.Machine
end

