-- ==== Sys2Proof/Machine/Integer.lean ====
section
/-! DEFINITION. The integer instructions (40_integer.md), one meaning each. -/

namespace Sys2Proof.Machine

/-- ADD (R142). -/
def execAdd (rd rs1 rs2 : Reg) (s : State) : Result := .next (s.opRegister aluAdd rd rs1 rs2)

/-- SUB (R143). -/
def execSub (rd rs1 rs2 : Reg) (s : State) : Result := .next (s.opRegister aluSub rd rs1 rs2)

/-- SLL (R144). -/
def execSll (rd rs1 rs2 : Reg) (s : State) : Result := .next (s.opRegister aluSll rd rs1 rs2)

/-- SLT (R145). -/
def execSlt (rd rs1 rs2 : Reg) (s : State) : Result := .next (s.opRegister aluSlt rd rs1 rs2)

/-- SLTU (R146). -/
def execSltu (rd rs1 rs2 : Reg) (s : State) : Result := .next (s.opRegister aluSltu rd rs1 rs2)

/-- XOR (R147). -/
def execXor (rd rs1 rs2 : Reg) (s : State) : Result := .next (s.opRegister aluXor rd rs1 rs2)

/-- SRL (R148). -/
def execSrl (rd rs1 rs2 : Reg) (s : State) : Result := .next (s.opRegister aluSrl rd rs1 rs2)

/-- SRA (R149). -/
def execSra (rd rs1 rs2 : Reg) (s : State) : Result := .next (s.opRegister aluSra rd rs1 rs2)

/-- OR (R150). -/
def execOr (rd rs1 rs2 : Reg) (s : State) : Result := .next (s.opRegister aluOr rd rs1 rs2)

/-- AND (R151). -/
def execAnd (rd rs1 rs2 : Reg) (s : State) : Result := .next (s.opRegister aluAnd rd rs1 rs2)

/-- ADDI (R152). -/
def execAddi (rd rs1 : Reg) (imm : BitVec 12) (s : State) : Result :=
  .next (s.opImmediate aluAdd rd rs1 (sext12 imm))

/-- SLTI (R153). -/
def execSlti (rd rs1 : Reg) (imm : BitVec 12) (s : State) : Result :=
  .next (s.opImmediate aluSlt rd rs1 (sext12 imm))

/-- SLTIU (R154): the immediate is sign-extended, then compared unsigned. -/
def execSltiu (rd rs1 : Reg) (imm : BitVec 12) (s : State) : Result :=
  .next (s.opImmediate aluSltu rd rs1 (sext12 imm))

/-- XORI (R155). -/
def execXori (rd rs1 : Reg) (imm : BitVec 12) (s : State) : Result :=
  .next (s.opImmediate aluXor rd rs1 (sext12 imm))

/-- ORI (R156). -/
def execOri (rd rs1 : Reg) (imm : BitVec 12) (s : State) : Result :=
  .next (s.opImmediate aluOr rd rs1 (sext12 imm))

/-- ANDI (R157). -/
def execAndi (rd rs1 : Reg) (imm : BitVec 12) (s : State) : Result :=
  .next (s.opImmediate aluAnd rd rs1 (sext12 imm))

/-- SLLI (R158): the shift amount is imm[4:0], the other bits are not inspected. -/
def execSlli (rd rs1 : Reg) (imm : BitVec 12) (s : State) : Result :=
  .next (s.opImmediate aluSll rd rs1 (sext12 imm))

/-- SRLI (R159): the shift amount is imm[4:0]. -/
def execSrli (rd rs1 : Reg) (imm : BitVec 12) (s : State) : Result :=
  .next (s.opImmediate aluSrl rd rs1 (sext12 imm))

/-- SRAI (R160): the immediate holds 0x400 + shamt, only imm[4:0] is the shift amount. -/
def execSrai (rd rs1 : Reg) (imm : BitVec 12) (s : State) : Result :=
  .next (s.opImmediate aluSra rd rs1 (sext12 imm))

/-- LUI (R161). -/
def execLui (rd : Reg) (imm20 : BitVec 20) (s : State) : Result := .next (s.opUpper rd (upper20 imm20))

/-- AUIPC (R162): `pc` is the address of the AUIPC itself, not masked. -/
def execAuipc (rd : Reg) (imm20 : BitVec 20) (s : State) : Result := .next (s.opUpper rd (s.pcF + upper20 imm20))

end Sys2Proof.Machine
end

