-- ==== Sys2Proof/Machine/LoadStore.lean ====
section
/-! DEFINITION. The load and store instructions (43_loadstore.md), one meaning each. -/

namespace Sys2Proof.Machine

/-- LB (R234). -/
def execLb (rd rs1 : Reg) (imm : BitVec 12) (s : State) : Result := .next (s.opLoad 0#3 rd rs1 imm)

/-- LH (R235). -/
def execLh (rd rs1 : Reg) (imm : BitVec 12) (s : State) : Result := .next (s.opLoad 1#3 rd rs1 imm)

/-- LW (R236). -/
def execLw (rd rs1 : Reg) (imm : BitVec 12) (s : State) : Result := .next (s.opLoad 2#3 rd rs1 imm)

/-- LBU (R237). -/
def execLbu (rd rs1 : Reg) (imm : BitVec 12) (s : State) : Result := .next (s.opLoad 4#3 rd rs1 imm)

/-- LHU (R238). -/
def execLhu (rd rs1 : Reg) (imm : BitVec 12) (s : State) : Result := .next (s.opLoad 5#3 rd rs1 imm)

/-- SB (R239). -/
def execSb (rs2 rs1 : Reg) (imm : BitVec 12) (s : State) : Result := .next (s.opStore 0#3 rs2 rs1 imm)

/-- SH (R240). -/
def execSh (rs2 rs1 : Reg) (imm : BitVec 12) (s : State) : Result := .next (s.opStore 1#3 rs2 rs1 imm)

/-- SW (R241). -/
def execSw (rs2 rs1 : Reg) (imm : BitVec 12) (s : State) : Result := .next (s.opStore 2#3 rs2 rs1 imm)

end Sys2Proof.Machine
end

