-- ==== Sys2Proof/Machine/MulDiv.lean ====
section
/-! DEFINITION. The multiply and divide instructions (41_muldiv.md), one meaning each. -/

namespace Sys2Proof.Machine

/-- MUL (R182). -/
def execMul (rd rs1 rs2 : Reg) (s : State) : Result := .next (s.opRegister aluMul rd rs1 rs2)

/-- MULH (R183). -/
def execMulh (rd rs1 rs2 : Reg) (s : State) : Result := .next (s.opRegister aluMulh rd rs1 rs2)

/-- MULHSU (R184). -/
def execMulhsu (rd rs1 rs2 : Reg) (s : State) : Result := .next (s.opRegister aluMulhsu rd rs1 rs2)

/-- MULHU (R185). -/
def execMulhu (rd rs1 rs2 : Reg) (s : State) : Result := .next (s.opRegister aluMulhu rd rs1 rs2)

/-- DIV (R186). -/
def execDiv (rd rs1 rs2 : Reg) (s : State) : Result := .next (s.opRegister aluDiv rd rs1 rs2)

/-- DIVU (R187). -/
def execDivu (rd rs1 rs2 : Reg) (s : State) : Result := .next (s.opRegister aluDivu rd rs1 rs2)

/-- REM (R188). -/
def execRem (rd rs1 rs2 : Reg) (s : State) : Result := .next (s.opRegister aluRem rd rs1 rs2)

/-- REMU (R189). -/
def execRemu (rd rs1 rs2 : Reg) (s : State) : Result := .next (s.opRegister aluRemu rd rs1 rs2)

end Sys2Proof.Machine
end

