-- ==== Sys2Proof/Machine/System.lean ====
section
/-! DEFINITION. The words of no implemented opcode (44_system_unallocated.md): each is a NOP that advances the pc and does
nothing else (R250), whatever its operand fields hold. -/

namespace Sys2Proof.Machine

/-- FENCE (R251). -/
def execFence (s : State) : Result := .next s.opNop

/-- FENCE.I (R251). -/
def execFenceI (s : State) : Result := .next s.opNop

/-- ECALL (R252: there is no environment-call exception). -/
def execEcall (s : State) : Result := .next s.opNop

/-- EBREAK (R253: there is no breakpoint exception). -/
def execEbreak (s : State) : Result := .next s.opNop

/-- CSRRW (R254: rd is left unchanged). -/
def execCsrrw (s : State) : Result := .next s.opNop

/-- CSRRS (R255: rd is left unchanged). -/
def execCsrrs (s : State) : Result := .next s.opNop

/-- CSRRC (R256: rd is left unchanged). -/
def execCsrrc (s : State) : Result := .next s.opNop

/-- CSRRWI (R257: rd is left unchanged). -/
def execCsrrwi (s : State) : Result := .next s.opNop

/-- CSRRSI (R258: rd is left unchanged). -/
def execCsrrsi (s : State) : Result := .next s.opNop

/-- CSRRCI (R259: rd is left unchanged). -/
def execCsrrci (s : State) : Result := .next s.opNop

/-- MRET (R260: there is no trap state to restore). -/
def execMret (s : State) : Result := .next s.opNop

/-- SRET (R260: there is no trap state to restore). -/
def execSret (s : State) : Result := .next s.opNop

/-- WFI (R261: the core does not sleep). -/
def execWfi (s : State) : Result := .next s.opNop

/-- SFENCE.VMA (R262). -/
def execSfenceVma (s : State) : Result := .next s.opNop

/-- LR.W (R263: there is no reservation). -/
def execLrW (s : State) : Result := .next s.opNop

/-- SC.W (R263: it stores nothing and does not write rd). -/
def execScW (s : State) : Result := .next s.opNop

/-- Every other AMO word (R263). -/
def execAmo (s : State) : Result := .next s.opNop

/-- LOAD-FP (R264: no memory is read). -/
def execLoadFp (s : State) : Result := .next s.opNop

/-- STORE-FP (R264: no memory is written). -/
def execStoreFp (s : State) : Result := .next s.opNop

/-- OP-FP (R264). -/
def execOpFp (s : State) : Result := .next s.opNop

/-- FMADD (R264). -/
def execFmadd (s : State) : Result := .next s.opNop

/-- FMSUB (R264). -/
def execFmsub (s : State) : Result := .next s.opNop

/-- FNMSUB (R264). -/
def execFnmsub (s : State) : Result := .next s.opNop

/-- FNMADD (R264). -/
def execFnmadd (s : State) : Result := .next s.opNop

/-- OP-32 (R265). -/
def execOp32 (s : State) : Result := .next s.opNop

/-- OP-IMM-32 (R265). -/
def execOpImm32 (s : State) : Result := .next s.opNop

/-- custom-0 (R265). -/
def execCustom0 (s : State) : Result := .next s.opNop

/-- custom-1 (R265). -/
def execCustom1 (s : State) : Result := .next s.opNop

/-- custom-2 (R265). -/
def execCustom2 (s : State) : Result := .next s.opNop

/-- custom-3 (R265). -/
def execCustom3 (s : State) : Result := .next s.opNop

/-- Any other word of no implemented opcode (R250). -/
def execAnyOther (s : State) : Result := .next s.opNop

end Sys2Proof.Machine
end

