-- ==== Sys2Proof/Machine/Pipeline.lean ====
section
/-! DEFINITION. The cycle level (50_pipeline.md): what each stage computes from the committed state and the same-cycle
signals, in the order WriteBack, Memory, Execute, Decode, Fetch, and the commit. -/

namespace Sys2Proof.Machine

/-! ## Instruction classes, by the opcode of the record; a NOP record is in none of them -/

def Inst.isLoad (i : Inst) : Bool := i.fmt ≠ .NOP && i.opcode == 0b0000011#7
def Inst.isStore (i : Inst) : Bool := i.fmt ≠ .NOP && i.opcode == 0b0100011#7
def Inst.isBranch (i : Inst) : Bool := i.fmt ≠ .NOP && i.opcode == 0b1100011#7
def Inst.isJal (i : Inst) : Bool := i.fmt ≠ .NOP && i.opcode == 0b1101111#7
def Inst.isJalr (i : Inst) : Bool := i.fmt ≠ .NOP && i.opcode == 0b1100111#7
def Inst.isCf (i : Inst) : Bool := i.isBranch || i.isJal || i.isJalr

/-- Does the instruction write a register in WriteBack (R322)? -/
def Inst.producer (i : Inst) : Bool := hasRd i.fmt

/-- Is the result available for forwarding from Execute (R327)? -/
def Inst.forwardsFromExecute (i : Inst) : Bool := i.opcode == 0b0110011#7 || i.opcode == 0b0010011#7

/-! ## The ALU by record fields (R315) -/

/-- The R-type operation of `(funct7, funct3)` (30_encoding.md R113). -/
def aluRegister (f7 : BitVec 7) (f3 : BitVec 3) (a b : Word) : Word :=
  if f7 = 0b0000000#7 then
    if f3 = 0#3 then aluAdd a b else if f3 = 1#3 then aluSll a b else if f3 = 2#3 then aluSlt a b
    else if f3 = 3#3 then aluSltu a b else if f3 = 4#3 then aluXor a b else if f3 = 5#3 then aluSrl a b
    else if f3 = 6#3 then aluOr a b else aluAnd a b
  else if f7 = 0b0100000#7 then
    if f3 = 0#3 then aluSub a b else if f3 = 5#3 then aluSra a b else 0#32
  else if f7 = 0b0000001#7 then
    if f3 = 0#3 then aluMul a b else if f3 = 1#3 then aluMulh a b else if f3 = 2#3 then aluMulhsu a b
    else if f3 = 3#3 then aluMulhu a b else if f3 = 4#3 then aluDiv a b else if f3 = 5#3 then aluDivu a b
    else if f3 = 6#3 then aluRem a b else aluRemu a b
  else 0#32

/-- The I-type operation of funct3, and of `imm[10]` for funct3 101 (30_encoding.md R114). -/
def aluImmediate (f3 : BitVec 3) (a imm : Word) : Word :=
  if f3 = 0#3 then aluAdd a imm else if f3 = 1#3 then aluSll a imm else if f3 = 2#3 then aluSlt a imm
  else if f3 = 3#3 then aluSltu a imm else if f3 = 4#3 then aluXor a imm
  else if f3 = 5#3 then (if imm.getLsbD 10 then aluSra a imm else aluSrl a imm)
  else if f3 = 6#3 then aluOr a imm else aluAnd a imm

/-- Execute's ALU output (R315). -/
def Inst.alu (i : Inst) (a b pc : Word) : Word :=
  if i.fmt = .NOP then 0#32
  else if i.opcode = 0b0110011#7 then aluRegister i.funct7 i.funct3 a b
  else if i.opcode = 0b0010011#7 then aluImmediate i.funct3 a i.imm
  else if i.opcode = 0b0000011#7 then a + i.imm
  else if i.opcode = 0b0100011#7 then a + i.imm
  else if i.opcode = 0b1100011#7 then branchTarget (branchCond i.funct3 a b) pc i.imm
  else if i.opcode = 0b1101111#7 then pc + i.imm
  else if i.opcode = 0b1100111#7 then jalrTarget a i.imm
  else if i.opcode = 0b0110111#7 then i.imm
  else if i.opcode = 0b0010111#7 then pc + i.imm
  else 0#32

/-- The value an instruction writes back (R310), which is also what Memory forwards for it (R312). -/
def Inst.writeValue (i : Inst) (pc alu mdata : Word) : Word :=
  if i.isLoad then mdata else if i.isJal || i.isJalr then pc + 4#32 else alu

/-! ## The signals of WriteBack, Memory and Execute (R310 to R319) -/

/-- What the three later stages compute in a cycle, before Decode and Fetch evaluate. -/
structure Signals where
  wbVal   : Word
  wbEn    : Bool
  mem     : Memory
  mdata   : Word
  memFwd  : Word
  alu     : Word
  squash  : Bool
  ctr     : List (Nat × BitVec 2)
  hist    : List (Nat × BitVec 8)
  retNow  : Word

/-- `squash` of R317. -/
def squashes (d : IdEx) : Bool :=
  d.inst.isCf && (d.irqj || decide (d.inst.alu d.a d.b d.pc ≠ d.pred))

/-- The evaluate of WriteBack, Memory and Execute. The store (R311) and the predictor update (R318) take place now,
and are seen by Fetch in the same cycle (R302). -/
def signals (s : State) : Signals :=
  let w := s.memwb
  let e := s.exmem
  let d := s.idex
  let mdata := if e.inst.isLoad then loadValue s.params s.mem e.inst.funct3 e.alu else 0#32
  let alu := d.inst.alu d.a d.b d.pc
  let taken := branchCond d.inst.funct3 d.a d.b
  { wbVal   := w.inst.writeValue w.pc w.alu w.mdata
    wbEn    := w.inst.producer && w.inst.rd != 0#5
    mem     := if e.inst.isStore then storeValue s.params s.mem e.inst.funct3 e.alu e.b else s.mem
    mdata   := mdata
    memFwd  := e.inst.writeValue e.pc e.alu mdata
    alu     := alu
    squash  := squashes d
    ctr     := if d.inst.isBranch then updateCtr s.params s.ctr s.hist d.pc taken else s.ctr
    hist    := if d.inst.isBranch then updateHist s.params s.hist d.pc taken else s.hist
    retNow  := if squashes d && s.irqActive then alu else s.retAddr }

/-! ## Decode (R322 to R333) -/

/-- Where an operand's value comes from (R326), in priority order. -/
inductive Source where
  | zero | execute | unresolved | memory | writeBack | regFile
  deriving DecidableEq, Repr

def operandSource (s : State) (r : Reg) : Source :=
  if r = 0#5 then .zero
  else if s.idex.inst.producer && s.idex.inst.rd == r then
    (if s.idex.inst.forwardsFromExecute then .execute else .unresolved)
  else if s.exmem.inst.producer && s.exmem.inst.rd == r then .memory
  else if s.memwb.inst.producer && s.memwb.inst.rd == r then .writeBack
  else .regFile

/-- The operand's value (R326); an unresolved one is never used (R330). -/
def operandValue (s : State) (r : Reg) : Word :=
  match operandSource s r with
  | .zero => 0#32
  | .execute => (signals s).alu
  | .unresolved => 0#32
  | .memory => (signals s).memFwd
  | .writeBack => (signals s).wbVal
  | .regFile => s.readReg r

/-- Does the read take a value that nothing has written since reset (R325, R35)? A forwarded value is written. -/
def operandUnwritten (s : State) (r : Reg) : Bool := operandSource s r == .regFile && s.unwritten r

/-- The record in Decode. -/
def State.inDecode (s : State) : Inst := decodeRecord s.ifid.word

/-- Does the instruction in Decode read an operand that is not available yet (R330)? -/
def State.hazard (s : State) : Bool :=
  (hasRs1 s.inDecode.fmt && operandSource s s.inDecode.rs1 == .unresolved)
    || (hasRs2 s.inDecode.fmt && operandSource s s.inDecode.rs2 == .unresolved)

/-- The reserved cell the word in Decode lies in, if any (30_encoding.md R120). -/
def reservedCell (w : Word) : Option Reserved :=
  match decode w with
  | .ok _ => none
  | .error c => some c

/-- BUBBLE as Decode writes it into ID/EX (R330). DEDUCED (notes/assumptions/6.md): a squash or countdown bubble
carries the same pc and pred fields as a hazard bubble; no rule reads them. -/
def State.bubble (s : State) : IdEx :=
  { inst := Inst.bubble, pc := s.ifid.pc, pred := s.ifid.pred, a := 0#32, b := 0#32, irqj := false }

/-- The IRQ jump for the return address `r` (60_exceptions.md R414). -/
def irqJump (p : Params) (r : Word) : IdEx :=
  { inst := { word := 0#32, fmt := .J, opcode := 0b1101111#7, funct3 := 0#3, funct7 := 0#7, rs1 := 0#5, rs2 := 0#5,
              rd := p.irqLink, imm := p.irqHandler - (r - 4#32) }
    pc := r - 4#32, pred := r, a := 0#32, b := 0#32, irqj := true }

/-- Case 4 of R331: the issued instruction with its resolved operands. -/
def State.issue (s : State) : IdEx :=
  let i := s.inDecode
  { inst := i, pc := s.ifid.pc, pred := s.ifid.pred
    a := if hasRs1 i.fmt then operandValue s i.rs1 else 0#32
    b := if hasRs2 i.fmt then operandValue s i.rs2 else 0#32
    irqj := false }

/-- What Decode writes in a cycle: ID/EX, the stall of Fetch, the countdown, the report of an unwritten read. -/
structure DecodeOut where
  idex      : IdEx
  stall     : Bool
  irqCnt    : Nat
  irqActive : Bool
  unwritten : Bool

/-- Which case of R331 a cycle takes. -/
inductive DecodeCase where
  | countdown | irqJump | squash | hazard | issue
  deriving DecidableEq, Repr

def State.decodeCase (s : State) : DecodeCase :=
  if s.irqActive then (if s.irqCnt - 1 = 0 then .irqJump else .countdown)
  else if squashes s.idex then .squash
  else if s.hazard then .hazard
  else .issue

/-- Decode's evaluate by case (R331). -/
def decodeOut (s : State) : DecodeOut :=
  match s.decodeCase with
  | .countdown =>
    { idex := s.bubble, stall := !(squashes s.idex), irqCnt := s.irqCnt - 1, irqActive := true, unwritten := false }
  | .irqJump =>
    { idex := irqJump s.params (signals s).retNow, stall := !(squashes s.idex), irqCnt := s.irqCnt - 1,
      irqActive := false, unwritten := false }
  | .squash =>
    { idex := s.bubble, stall := false, irqCnt := s.irqCnt, irqActive := false, unwritten := false }
  | .hazard =>
    { idex := s.bubble, stall := true, irqCnt := s.irqCnt, irqActive := false, unwritten := false }
  | .issue =>
    { idex := s.issue, stall := false, irqCnt := s.irqCnt, irqActive := false
      unwritten := (hasRs1 s.inDecode.fmt && operandUnwritten s s.inDecode.rs1)
        || (hasRs2 s.inDecode.fmt && operandUnwritten s s.inDecode.rs2) }

/-! ## Fetch (R335, R336) -/

/-- The predicted next PC of a word just fetched (R336). -/
def predictNext (p : Params) (ctr : List (Nat × BitVec 2)) (hist : List (Nat × BitVec 8)) (word pc : Word) : Word :=
  if opcodeOf word = 0b1100011#7 then (if predict p ctr hist pc then pc + sext13 (immBOf word) else pc + 4#32)
  else if opcodeOf word = 0b1101111#7 then pc + sext21 (immJOf word)
  else if opcodeOf word = 0b1100111#7 then pc + sext12 (immIOf word)
  else pc + 4#32

/-- Fetch's evaluate at `pc`, over the memory and predictor of this cycle (R302, R335). -/
def fetchAt (s : State) (g : Signals) (pc : Word) : IfId :=
  let word := readWord s.params g.mem pc
  { word := word, pc := pc, pred := predictNext s.params g.ctr g.hist word pc }

/-- What IF/ID holds after the cycle: frozen while Fetch is stalled, else the word at the redirect target or at the
predicted next PC; a squash overrides a stall (R335). -/
def fetchOut (s : State) (stall : Bool) : IfId :=
  let g := signals s
  if stall && !g.squash then s.ifid
  else fetchAt s g (if g.squash then g.alu else s.npcF)

/-- `npc_f` after the cycle (R335). -/
def nextFetchPc (s : State) (stall : Bool) : Word :=
  if stall && !(signals s).squash then s.npcF else (fetchOut s stall).pred

/-- `pc_f` after the cycle (R335). -/
def currentFetchPc (s : State) (stall : Bool) : Word :=
  if stall && !(signals s).squash then s.pcF else (fetchOut s stall).pc

/-! ## Commit and the cycle (R300) -/

/-- The commit of every register, given what Decode wrote; the register file commits last (R300, R310). -/
def commit (s : State) (d : DecodeOut) : State :=
  let g := signals s
  let t := if g.wbEn then s.writeReg s.memwb.inst.rd g.wbVal else s
  { t with
    unwrittenRead := s.unwrittenRead || d.unwritten
    pcF       := currentFetchPc s d.stall
    npcF      := nextFetchPc s d.stall
    ifid      := fetchOut s d.stall
    idex      := d.idex
    exmem     := { inst := s.idex.inst, pc := s.idex.pc, alu := g.alu, b := s.idex.b }
    memwb     := { inst := s.exmem.inst, pc := s.exmem.pc, alu := s.exmem.alu, mdata := g.mdata }
    ctr       := g.ctr
    hist      := g.hist
    irqCnt    := d.irqCnt
    irqActive := d.irqActive
    retAddr   := g.retNow
    mem       := g.mem }

/-- Does this cycle issue a word of a reserved cell (R333)? -/
def State.issuesReserved (s : State) : Option Reserved :=
  match s.decodeCase with
  | .issue => reservedCell s.ifid.word
  | .countdown | .irqJump | .squash | .hazard => none

/-- One cycle (R300): a reserved word is refused when, and only when, it is issued (R333). -/
def cycle (s : State) : Result :=
  match s.issuesReserved with
  | some c => .refused (.reservedEncoding c)
  | none => .next (commit s (decodeOut s))

/-- `n` cycles with no host action between them. -/
def cycles : Nat → State → Result
  | 0, s => .next s
  | n + 1, s =>
    match cycle s with
    | .next t => cycles n t
    | .fault r => .fault r
    | .refused r => .refused r

/-! ## Draining: the bridge between the two levels (R6, R350) -/

/-- A cycle in which Decode issues nothing and Fetch holds unless Execute redirects, as a countdown cycle does
(R331 case 1), the countdown itself standing still. -/
def drainCycle (s : State) : State :=
  commit s { idex := s.bubble, stall := !(squashes s.idex), irqCnt := s.irqCnt, irqActive := s.irqActive,
             unwritten := false }

/-- The state in which every issued instruction has completed (R333) and the next instruction is the one that follows
them, not yet fetched: what the instruction level sees of a cycle-level state. DESIGN CHOICE
(notes/assumptions/1.md): the spec gives both levels and no function between them. -/
def State.flush (s : State) : State :=
  let t := drainCycle (drainCycle (drainCycle s))
  t.restart t.pcF

/-- No instruction is in flight and none is fetched: a state of the instruction level, such as reset. -/
def State.quiet (s : State) : Bool :=
  decide (s.npcF = s.pcF) && decide (s.ifid = IfId.restart s.pcF) && decide (s.idex = IdEx.empty)
    && decide (s.exmem = ExMem.empty) && decide (s.memwb = MemWb.empty)

/-! ## The end of a run (70_reset_and_hazards.md R506) -/

/-- Is this stage empty, or does it hold the self-jump at `e`? -/
def endStage (e : Word) (i : Inst) (pc : Word) : Bool :=
  decide (i = Inst.bubble) || (decide (i = decodeRecord 0x0000006F#32) && decide (pc = e))

/-- The run of a program whose self-jump `jal x0, 0` is at `e` has ended (R506). -/
def State.ended (s : State) (e : Word) : Bool :=
  decide (s.ifid.word = 0x0000006F#32) && decide (s.ifid.pc = e) && endStage e s.idex.inst s.idex.pc
    && endStage e s.exmem.inst s.exmem.pc && endStage e s.memwb.inst s.memwb.pc

end Sys2Proof.Machine
end

