-- ==== Sys2Proof/Machine/HostAgents.lean ====
section
/-! DEFINITION. The host's actions at a cycle boundary (60_exceptions.md R405 to R437) and the reset and load of a
program (70_reset_and_hazards.md R500 to R505). Each is one atomic action (R430). -/

namespace Sys2Proof.Machine

/-! ## The interrupt controller -/

/-- `irq()` (R412): record the current PC and start the countdown; ignored while one runs (decision D27). -/
def State.irq (s : State) : State :=
  if s.irqActive then s
  else { s with retAddr := s.pcF, irqCnt := s.params.irqDrain, irqActive := true }

/-- The first half of `interrupt()` (R410): an acknowledge clears the in-flight flag and is itself cleared. -/
def State.observeAcknowledge (s : State) : State :=
  if s.mmio s.params.kIrqHandled = 1#8 then
    { s.setMmio s.params.kIrqHandled 0#8 with blockIrq := false }
  else s

/-- `interrupt()` (R410). -/
def State.interrupt (s : State) : State :=
  let t := s.observeAcknowledge
  if t.mmio t.params.kIrqEn ≠ 0#8 ∧ t.blockIrq = false then ({ t with blockIrq := true } : State).irq else t

/-! ## The host agents -/

/-- `notify_keypress(b)` (R431). -/
def State.notifyKeypress (s : State) (b : Byte) : State :=
  ((s.setMmio s.params.kKbdIn b).setMmio s.params.kIrqVec s.params.causeKbd).interrupt

/-- `notify_uart_keypress(b)` (R432). -/
def State.notifyUartKeypress (s : State) (b : Byte) : State :=
  ((s.setMmio s.params.kUartRx b).setMmio s.params.kIrqVec s.params.causeUart).interrupt

/-- `notify_timer()` (R433). -/
def State.notifyTimer (s : State) : State :=
  (s.setMmio s.params.kIrqVec s.params.causeTimer).interrupt

/-- A timer tick: plus 1 modulo 256 (R434). -/
def State.tickTimer (s : State) : State := s.setMmio s.params.kTimer (s.mmio s.params.kTimer + 1#8)

/-- A UART drain step (R435). -/
def State.drainUart (s : State) : State :=
  if s.mmio s.params.kDataReady ≠ 0#8 then
    { s.setMmio s.params.kDataReady 0#8 with uartOut := s.uartOut ++ [s.mmio s.params.kUartTx] }
  else s

/-! ## Reset and load -/

/-- `reset()` (R502): every piece of core state at its reset value, memory kept. What belongs to the host (its UART
buffer, its schedule, its clock control) is no core state and is kept (notes/assumptions/8.md). -/
def State.coreReset (s : State) : State :=
  { State.initial s.params with mem := s.mem, uartOut := s.uartOut, inbox := s.inbox, pace := s.pace }

/-- `load_program` (R501): refused if the image is longer than memory, or if the chosen MEM_SIZE makes the parameters
illegal; else zero-fill, copy at 0, and reset. -/
def State.load (s : State) (memLog : Nat) (image : List Byte) : Result :=
  let p := { s.params with memLog := memLog }
  if p.legal = false then .refused .illegalMemorySize
  else if image.length > p.memSize then .refused .imageTooLarge
  else .next ({ s with params := p, mem := imageCells 0 image } : State).coreReset

/-- One host action (R437). `start()` runs the clock, `stop()` halts it, both at a boundary and with no other change
(70_reset_and_hazards.md R505). DESIGN CHOICE (notes/assumptions/19.md): the spec gives `step()` "while halted" only; the
model runs one cycle for it whatever the pace. DESIGN CHOICE (notes/assumptions/18.md): the spec gives host events at
cycle boundaries only; the model applies one between two instructions of the instruction level as well, every older
store being performed there. -/
def hostAction (a : HostAction) (s : State) : Result :=
  match a with
  | .keypress b => .next (s.notifyKeypress b)
  | .uartKeypress b => .next (s.notifyUartKeypress b)
  | .timerEvent => .next s.notifyTimer
  | .timerTick => .next s.tickTimer
  | .uartDrain => .next s.drainUart
  | .clock => cycle s
  | .start => .next { s with pace := .cycle }
  | .stop => .next { s with pace := .halted }
  | .reset => .next s.coreReset
  | .loadProgram k image => s.load k image

end Sys2Proof.Machine
end

