-- ==== Sys2Proof/Machine/Interpreter.lean ====
section
/-! DEFINITION. The reference interpreter (50_pipeline.md R350) over the machine's state: one instruction, or one
interrupt entry, as a whole. -/

namespace Sys2Proof.Machine

/-- One step of the instruction level: let what is in flight complete; then, if a countdown runs, take the interrupt
(60_exceptions.md R413 to R417); else execute the instruction at the PC. DESIGN CHOICE (notes/assumptions/18.md): an
event that comes between two such steps finds every older store performed, so the windows of 60_exceptions.md R421 and
70_reset_and_hazards.md R524 are those of the cycle level only. -/
def runInstruction (s : State) : Result :=
  let t := s.flush
  if t.irqActive then .next t.takeInterrupt
  else
    match decode t.fetchWord with
    | .ok i => exec i t
    | .error c => .refused (.reservedEncoding c)

/-- Place the bytes of a word, first byte first, from address `a` on. -/
def placeWord (p : Params) (m : Memory) (a : Word) (w : Nat) : Memory := writeWord p m a (BitVec.ofNat 32 w)

end Sys2Proof.Machine
end

