-- ==== Sys2Proof/Machine/Step.lean ====
section
/-! DEFINITION. One step of the machine: the next host action if one is waiting, else what the machine's pace says
(00_scope.md R6, 70_reset_and_hazards.md R505). -/

namespace Sys2Proof.Machine

/-- A waiting host action is applied whole, whatever the pace (60_exceptions.md R430, decision D44). With none waiting, the
machine runs one instruction or one cycle, or, the clock being halted, keeps all its state (70_reset_and_hazards.md R507).
DESIGN CHOICE (notes/assumptions/18.md): at the instruction level an action stands between two whole instructions, a
store into IRQ_EN or IRQ_HANDLED having been performed before it; the spec has no such events, and the two-instruction
window of 70_reset_and_hazards.md R524 exists at the cycle level only. -/
def step (s : State) : Host.Outcome State Fault Refusal :=
  if s.params.legal = false then .fault .illegalParameters
  else
    match s.inbox with
    | a :: rest => hostAction a { s with inbox := rest }
    | [] =>
      match s.pace with
      | .instruction => runInstruction s
      | .cycle => cycle s
      | .halted => .next s

/-- `s` with the instruction word stored where the next step fetches it: at the PC, no instruction in flight before
it, no host action or interrupt entry due first. -/
def State.withFetchWord (s : State) (nbits w : Nat) : State :=
  let t := s.flush
  { t with mem := placeWord t.params t.mem t.pcF (w % 2 ^ nbits), irqActive := false, irqCnt := 0,
           inbox := [], pace := .instruction }

end Sys2Proof.Machine
end

