-- ==== Sys2Proof/Safety.lean ====
section
/-! DEFINITION. What claims about the machine are stated in: the invariant of its state, what it means for a step to
be safe, and what an instruction leaves alone. -/

namespace Sys2Proof.Machine

/-! ## The invariant -/

/-- Is the opcode that of a control transfer? Fetch predicts `pc + 4` for every other word (50_pipeline.md R336). -/
def isCfOpcode (op : BitVec 7) : Bool := op == 0b1100011#7 || op == 0b1101111#7 || op == 0b1100111#7

/-- Memory and the predictor's tables are in canonical form, within MEM_SIZE and PRED_SIZE (10_state.md R47, R49). -/
structure State.StoresOk (s : State) : Prop where
  mem  : Memory.wf s.params.memSize s.mem = true
  ctr  : sparseWf 0#2 s.params.predSize s.ctr = true
  hist : sparseWf 0#8 s.params.predSize s.hist = true

/-- A register nothing has written since reset holds its reset value (10_state.md R35; notes/assumptions/3.md). -/
def State.UnwrittenZero (s : State) : Prop := ∀ r : Reg, s.unwritten r = true → s.readReg r = 0#32

/-- How the fetch registers, the pipeline registers and the interrupt state hang together in every state the machine
reaches (10_state.md R36, R48; 50_pipeline.md R317, R335, R336; 60_exceptions.md R412, R415). -/
structure State.PipeOk (s : State) : Prop where
  /-- "`pc_f` … always equal to `IFID.out.pc`" (R36). -/
  currentPc    : s.ifid.pc = s.pcF
  /-- `npc_f` is the prediction made for the word in IF/ID (R335). -/
  nextPc       : s.npcF = s.ifid.pred
  /-- A word that transfers no control is followed by the next word (R336), but for the NOP from which Fetch
  restarts (R503). -/
  sequential   : s.ifid = IfId.restart s.pcF ∨ isCfOpcode (opcodeOf s.ifid.word) = true
                   ∨ s.ifid.pred = s.ifid.pc + 4#32
  /-- Behind a control transfer in Execute, IF/ID holds the word at its predicted next PC (R317, R335). -/
  predicted    : s.idex.inst.isCf = true → s.idex.irqj = false → s.idex.pred = s.pcF
  /-- `irqj` marks only the IRQ jump (R43). -/
  jumpMark     : s.idex.irqj = true → s.idex.inst.isCf = true
  /-- While the countdown runs, the return address is the address of the word in IF/ID (60_exceptions.md R412,
  50_pipeline.md R319). -/
  returnPc     : s.irqActive = true → s.retAddr = s.pcF
  /-- The countdown has cycles left while it runs, and none while it does not (R48, 60_exceptions.md R413). -/
  countRunning : s.irqActive = true → 1 ≤ s.irqCnt
  countIdle    : s.irqActive = false → s.irqCnt = 0
  /-- `irq_cnt` is in 0..IRQ_DRAIN_CYCLES (R48). -/
  countBound   : s.irqCnt ≤ s.params.irqDrain

/-- The invariant every step keeps. -/
structure State.Inv (s : State) : Prop where
  legal   : s.params.legal = true
  stores  : s.StoresOk
  regs    : s.UnwrittenZero
  pipe    : s.PipeOk

/-! ## Safe steps and runs -/

/-- Does the step go on (neither a fault nor a refusal)? -/
def goesOn (r : Result) : Bool :=
  match r with
  | .next _ => true
  | .fault _ => false
  | .refused _ => false

/-- A run of `n` steps that neither faults nor is refused. -/
def SafeRun (n : Nat) (s : State) : Prop := ∃ t, Sys2Proof.core.run n s = .next t

/-! ## Frames -/

/-- Everything but the general registers, the fetch registers, the predictor and memory is as before. -/
structure ControlKept (s t : State) : Prop where
  idex      : t.idex = s.idex
  exmem     : t.exmem = s.exmem
  memwb     : t.memwb = s.memwb
  blockIrq  : t.blockIrq = s.blockIrq
  irqCnt    : t.irqCnt = s.irqCnt
  irqActive : t.irqActive = s.irqActive
  retAddr   : t.retAddr = s.retAddr
  uartOut   : t.uartOut = s.uartOut
  params    : t.params = s.params
  inbox     : t.inbox = s.inbox
  pace      : t.pace = s.pace

/-- Every byte of memory reads as before. -/
def MemoryKept (s t : State) : Prop := ∀ a, readByte t.params t.mem a = readByte s.params s.mem a

/-- Every byte of memory outside the `n` bytes from address `a` on reads as before. -/
def MemoryKeptOutside (s t : State) (a : Word) (n : Nat) : Prop :=
  ∀ x, (∀ i < n, maskAddr s.params x ≠ maskAddr s.params (a + BitVec.ofNat 32 i)) →
    readByte t.params t.mem x = readByte s.params s.mem x

/-- The predictor's tables are as before. -/
def PredictorKept (s t : State) : Prop := t.ctr = s.ctr ∧ t.hist = s.hist

/-- Register `rd` now reads `v`, and counts as written, if it is not x0; every other register reads as before, and
x0 reads 0 (10_state.md R31). -/
def WritesReg (s t : State) (rd : Reg) (v : Word) : Prop :=
  (∀ r, t.readReg r = if r = 0#5 then 0#32 else if r = rd then v else s.readReg r)
    ∧ (∀ r, t.unwritten r = (s.unwritten r && decide (r ≠ rd)))

/-- Every register reads as before. -/
def RegsKept (s t : State) : Prop := (∀ r, t.readReg r = s.readReg r) ∧ (∀ r, t.unwritten r = s.unwritten r)

/-- The report of unwritten reads is kept, and made if one of the registers read was not written since reset
(10_state.md R35; notes/assumptions/3.md). -/
def Reports (s t : State) (read : List Reg) : Prop :=
  t.unwrittenRead = (s.unwrittenRead || read.any s.unwritten)

/-- The registers a record reads (10_state.md R34). -/
def Inst.reads (i : Inst) : List Reg :=
  (if hasRs1 i.fmt then [i.rs1] else []) ++ (if hasRs2 i.fmt then [i.rs2] else [])

/-- From `s` to `t`, register `rd` receives `v`, the next instruction is at `next`, and nothing else changes. -/
structure WritesOnly (s : State) (rd : Reg) (v : Word) (next : Word) (t : State) : Prop where
  reg       : WritesReg s t rd v
  pc        : t.pcF = next
  memory    : MemoryKept s t
  predictor : PredictorKept s t
  control   : ControlKept s t

/-- From `s` to `t`, the next instruction is at `next` and the predictor records the outcome of the branch at the PC
(50_pipeline.md R318, R342); no register and no byte changes, nor anything else. -/
structure BranchesOnly (s : State) (taken : Bool) (next : Word) (t : State) : Prop where
  pc      : t.pcF = next
  regs    : RegsKept s t
  memory  : MemoryKept s t
  ctr     : t.ctr = updateCtr s.params s.ctr s.hist s.pcF taken
  hist    : t.hist = updateHist s.params s.hist s.pcF taken
  control : ControlKept s t

/-- From `s` to `t`, the `n` bytes from address `a` on receive the low `n` bytes of `v`, least significant first; the
PC advances by 4 and nothing else changes. -/
structure StoresOnly (s : State) (a : Word) (n : Nat) (v : Word) (t : State) : Prop where
  bytes     : ∀ i < n, readByte t.params t.mem (a + BitVec.ofNat 32 i) = v.extractLsb' (8 * i) 8
  memory    : MemoryKeptOutside s t a n
  pc        : t.pcF = s.pcF + 4#32
  regs      : RegsKept s t
  predictor : PredictorKept s t
  control   : ControlKept s t

/-- From `s` to `t`, nothing changes but the PC, which advances by 4 (44_system_unallocated.md R250). -/
structure AdvancesOnly (s t : State) : Prop where
  pc        : t.pcF = s.pcF + 4#32
  regs      : RegsKept s t
  memory    : MemoryKept s t
  predictor : PredictorKept s t
  control   : ControlKept s t

/-- The word `w` is the instruction `i`, and executing `i` in `s` answers a next state of which `P` holds. -/
def Means (w : Word) (i : Instr) (s : State) (P : State → Prop) : Prop :=
  decode w = .ok i ∧ ∃ t, exec i s = .next t ∧ P t

/-! ## The bridge between the levels -/

/-- Does this cycle issue a word of the program? The NOP from which Fetch restarts is no word of the program (R350,
"after one initial NOP"). -/
def State.issuesProgramWord (s : State) : Bool :=
  s.decodeCase == .issue && !(decide (s.ifid = IfId.restart s.pcF))

/-- The word in IF/ID is the one memory holds at its address once the stores in flight are done: no store hits the
fetch window (20_memory.md R85). -/
def State.fetchCoherent (s : State) : Bool := decide (s.ifid.word = s.flush.fetchWord)

/-- No store hits the fetch window in the next `n` cycles (20_memory.md R85, 50_pipeline.md R350). -/
def CoherentFor : Nat → State → Prop
  | 0, _ => True
  | n + 1, s => (s.issuesProgramWord = true → s.fetchCoherent = true) ∧ ∀ t, cycle s = .next t → CoherentFor n t

/-- `n` instructions of the reference interpreter (50_pipeline.md R350). -/
def instructions : Nat → State → Result
  | 0, s => .next s
  | n + 1, s =>
    match runInstruction s with
    | .next t => instructions n t
    | .fault f => .fault f
    | .refused r => .refused r

/-! ## Host actions -/

/-- Everything but memory and the interrupt controller's flags is as before: no host agent touches it
(60_exceptions.md R437). -/
structure CoreKept (s t : State) : Prop where
  regs          : t.regs = s.regs
  written       : t.written = s.written
  unwrittenRead : t.unwrittenRead = s.unwrittenRead
  pcF           : t.pcF = s.pcF
  npcF          : t.npcF = s.npcF
  ifid          : t.ifid = s.ifid
  idex          : t.idex = s.idex
  exmem         : t.exmem = s.exmem
  memwb         : t.memwb = s.memwb
  ctr           : t.ctr = s.ctr
  hist          : t.hist = s.hist
  params        : t.params = s.params
  inbox         : t.inbox = s.inbox

/-- The interrupt controller's state is as before. -/
def IrqKept (s t : State) : Prop :=
  t.blockIrq = s.blockIrq ∧ t.irqCnt = s.irqCnt ∧ t.irqActive = s.irqActive ∧ t.retAddr = s.retAddr

/-- Every byte of memory but those at the listed addresses is as before. -/
def MemoryKeptBut (s t : State) (addresses : List Nat) : Prop :=
  ∀ k, k ∉ addresses → sparseGet 0#8 t.mem k = sparseGet 0#8 s.mem k

/-- The address of the memory-mapped byte with offset `k` (10_state.md R50). -/
def State.mmioAddress (s : State) (k : Nat) : Nat := s.params.memSize - k

/-- An event is delivered: interrupts are enabled and none is in flight, or the one in flight has been acknowledged
(60_exceptions.md R410). -/
def State.delivers (s : State) : Bool :=
  decide (s.mmio s.params.kIrqEn ≠ 0#8) && (!s.blockIrq || decide (s.mmio s.params.kIrqHandled = 1#8))

/-- The three interrupt sources (60_exceptions.md R405): what each host event does to the state. -/
def State.event (s : State) : HostAction → Option State
  | .keypress b => some (s.notifyKeypress b)
  | .uartKeypress b => some (s.notifyUartKeypress b)
  | .timerEvent => some s.notifyTimer
  | .timerTick | .uartDrain | .clock | .start | .stop | .reset | .loadProgram _ _ => none

/-- The cause code of an event (60_exceptions.md R431 to R433). -/
def HostAction.cause (p : Params) : HostAction → Option Byte
  | .keypress _ => some p.causeKbd
  | .uartKeypress _ => some p.causeUart
  | .timerEvent => some p.causeTimer
  | .timerTick | .uartDrain | .clock | .start | .stop | .reset | .loadProgram _ _ => none

/-- The memory addresses an action of a host agent may write, as the table of 60_exceptions.md R437 lists them; none
for an action that is no agent's but the clock's or a restart. -/
def HostAction.touches (p : Params) : HostAction → Option (List Nat)
  | .keypress _ => some [p.memSize - p.kKbdIn, p.memSize - p.kIrqVec, p.memSize - p.kIrqHandled]
  | .uartKeypress _ => some [p.memSize - p.kUartRx, p.memSize - p.kIrqVec, p.memSize - p.kIrqHandled]
  | .timerEvent => some [p.memSize - p.kIrqVec, p.memSize - p.kIrqHandled]
  | .timerTick => some [p.memSize - p.kTimer]
  | .uartDrain => some [p.memSize - p.kDataReady]
  | .start | .stop => some []
  | .clock | .reset | .loadProgram _ _ => none

end Sys2Proof.Machine
end

