-- ==== Sys2Proof/Certificates/Slice0/Obligations.lean ====
section
/-! DEFINITION. The statements for the provers, each a rule of the spec or what follows from several. They speak of the
machine in every state, not of a program. What a statement calls a register's mark (written or not since reset) is
10_state.md R35's; the report of a read of an unmarked register is the model's (notes/assumptions/3.md) and stands in
the statements UnwrittenReadsAreReported, OperandForwarding and StepKeepsInvariant only. -/

open Sys2Proof Sys2Proof.Machine

/-! ## Encoding -/

/-- Decoding the word of a well-formed instruction gives it back, with every operand at every value. -/
def Obligations.EncodeDecodeRoundTrip : Prop := ∀ i : Instr, i.wf = true → decode (encode i) = .ok i

/-- A word that is an instruction is the word of that instruction alone, and the instruction has the fixed bits of its
row of opcode_table.json: no bit of a word is dropped and no word has two readings. -/
def Obligations.DecodeEncodeExact : Prop :=
  ∀ w i, decode w = .ok i → i.wf = true ∧ encode i = w ∧ w &&& tableMask i = tableMatch i

/-- 30_encoding.md R124: the record of an encoded word has exactly its fields, those a format lacks being 0, for every
opcode and format; and the boundary words of 95_test_vectors.md section 2. -/
def Obligations.RecordRoundTrip : Prop :=
  (∀ f7 rs2 rs1 f3 rd, let w := wordR f7 rs2 rs1 f3 rd 0b0110011#7
    decodeRecord w = { word := w, fmt := .R, opcode := 0b0110011#7, funct3 := f3, funct7 := f7, rs1 := rs1, rs2 := rs2,
                       rd := rd, imm := 0#32 })
  ∧ (∀ op ∈ [0b0010011#7, 0b0000011#7, 0b1100111#7], ∀ imm rs1 f3 rd, let w := wordI imm rs1 f3 rd op
    decodeRecord w = { word := w, fmt := .I, opcode := op, funct3 := f3, funct7 := 0#7, rs1 := rs1, rs2 := 0#5,
                       rd := rd, imm := imm.signExtend 32 })
  ∧ (∀ imm rs2 rs1 f3, let w := wordS imm rs2 rs1 f3 0b0100011#7
    decodeRecord w = { word := w, fmt := .S, opcode := 0b0100011#7, funct3 := f3, funct7 := 0#7, rs1 := rs1,
                       rs2 := rs2, rd := 0#5, imm := imm.signExtend 32 })
  ∧ (∀ off rs2 rs1 f3, off.getLsbD 0 = false → let w := wordB off rs2 rs1 f3 0b1100011#7
    decodeRecord w = { word := w, fmt := .B, opcode := 0b1100011#7, funct3 := f3, funct7 := 0#7, rs1 := rs1,
                       rs2 := rs2, rd := 0#5, imm := off.signExtend 32 })
  ∧ (∀ op ∈ [0b0110111#7, 0b0010111#7], ∀ imm20 rd, let w := wordU imm20 rd op
    decodeRecord w = { word := w, fmt := .U, opcode := op, funct3 := 0#3, funct7 := 0#7, rs1 := 0#5, rs2 := 0#5,
                       rd := rd, imm := imm20 ++ 0#12 })
  ∧ (∀ off rd, off.getLsbD 0 = false → let w := wordJ off rd 0b1101111#7
    decodeRecord w = { word := w, fmt := .J, opcode := 0b1101111#7, funct3 := 0#3, funct7 := 0#7, rs1 := 0#5,
                       rs2 := 0#5, rd := rd, imm := off.signExtend 32 })
  ∧ (∀ i ∈ ([
      ⟨0xFFFFFFB3#32, .R, 0b0110011#7, 7#3, 0b1111111#7, 31#5, 31#5, 31#5, 0#32⟩,
      ⟨0xAAAAAAB3#32, .R, 0b0110011#7, 2#3, 0b1010101#7, 21#5, 10#5, 21#5, 0#32⟩,
      ⟨0x55555533#32, .R, 0b0110011#7, 5#3, 0b0101010#7, 10#5, 21#5, 10#5, 0#32⟩,
      ⟨0x80000033#32, .R, 0b0110011#7, 0#3, 0b1000000#7, 0#5, 0#5, 0#5, 0#32⟩] ++ [
      ⟨0xFFFFFF93#32, .I, 0b0010011#7, 7#3, 0#7, 31#5, 0#5, 31#5, 0xFFFFFFFF#32⟩,
      ⟨0xAAAAAA93#32, .I, 0b0010011#7, 2#3, 0#7, 21#5, 0#5, 21#5, 0xFFFFFAAA#32⟩,
      ⟨0x55555513#32, .I, 0b0010011#7, 5#3, 0#7, 10#5, 0#5, 10#5, 0x00000555#32⟩,
      ⟨0x80000013#32, .I, 0b0010011#7, 0#3, 0#7, 0#5, 0#5, 0#5, 0xFFFFF800#32⟩] ++ [
      ⟨0xFFFFFF83#32, .I, 0b0000011#7, 7#3, 0#7, 31#5, 0#5, 31#5, 0xFFFFFFFF#32⟩,
      ⟨0xAAAAAA83#32, .I, 0b0000011#7, 2#3, 0#7, 21#5, 0#5, 21#5, 0xFFFFFAAA#32⟩,
      ⟨0x55555503#32, .I, 0b0000011#7, 5#3, 0#7, 10#5, 0#5, 10#5, 0x00000555#32⟩,
      ⟨0x80000003#32, .I, 0b0000011#7, 0#3, 0#7, 0#5, 0#5, 0#5, 0xFFFFF800#32⟩] ++ [
      ⟨0xFFFFFFE7#32, .I, 0b1100111#7, 7#3, 0#7, 31#5, 0#5, 31#5, 0xFFFFFFFF#32⟩,
      ⟨0xAAAAAAE7#32, .I, 0b1100111#7, 2#3, 0#7, 21#5, 0#5, 21#5, 0xFFFFFAAA#32⟩,
      ⟨0x55555567#32, .I, 0b1100111#7, 5#3, 0#7, 10#5, 0#5, 10#5, 0x00000555#32⟩,
      ⟨0x80000067#32, .I, 0b1100111#7, 0#3, 0#7, 0#5, 0#5, 0#5, 0xFFFFF800#32⟩] ++ [
      ⟨0xFFFFFFA3#32, .S, 0b0100011#7, 7#3, 0#7, 31#5, 31#5, 0#5, 0xFFFFFFFF#32⟩,
      ⟨0xAAAAAAA3#32, .S, 0b0100011#7, 2#3, 0#7, 21#5, 10#5, 0#5, 0xFFFFFAB5#32⟩,
      ⟨0x55555523#32, .S, 0b0100011#7, 5#3, 0#7, 10#5, 21#5, 0#5, 0x0000054A#32⟩,
      ⟨0x80000023#32, .S, 0b0100011#7, 0#3, 0#7, 0#5, 0#5, 0#5, 0xFFFFF800#32⟩] ++ [
      ⟨0xFFFFFFE3#32, .B, 0b1100011#7, 7#3, 0#7, 31#5, 31#5, 0#5, 0xFFFFFFFE#32⟩,
      ⟨0xAAAAAAE3#32, .B, 0b1100011#7, 2#3, 0#7, 21#5, 10#5, 0#5, 0xFFFFFAB4#32⟩,
      ⟨0x55555563#32, .B, 0b1100011#7, 5#3, 0#7, 10#5, 21#5, 0#5, 0x0000054A#32⟩,
      ⟨0x80000063#32, .B, 0b1100011#7, 0#3, 0#7, 0#5, 0#5, 0#5, 0xFFFFF000#32⟩] ++ [
      ⟨0xFFFFFFB7#32, .U, 0b0110111#7, 0#3, 0#7, 0#5, 0#5, 31#5, 0xFFFFF000#32⟩,
      ⟨0xAAAAAAB7#32, .U, 0b0110111#7, 0#3, 0#7, 0#5, 0#5, 21#5, 0xAAAAA000#32⟩,
      ⟨0x55555537#32, .U, 0b0110111#7, 0#3, 0#7, 0#5, 0#5, 10#5, 0x55555000#32⟩,
      ⟨0x80000037#32, .U, 0b0110111#7, 0#3, 0#7, 0#5, 0#5, 0#5, 0x80000000#32⟩] ++ [
      ⟨0xFFFFFF97#32, .U, 0b0010111#7, 0#3, 0#7, 0#5, 0#5, 31#5, 0xFFFFF000#32⟩,
      ⟨0xAAAAAA97#32, .U, 0b0010111#7, 0#3, 0#7, 0#5, 0#5, 21#5, 0xAAAAA000#32⟩,
      ⟨0x55555517#32, .U, 0b0010111#7, 0#3, 0#7, 0#5, 0#5, 10#5, 0x55555000#32⟩,
      ⟨0x80000017#32, .U, 0b0010111#7, 0#3, 0#7, 0#5, 0#5, 0#5, 0x80000000#32⟩] ++ [
      ⟨0xFFFFFFEF#32, .J, 0b1101111#7, 0#3, 0#7, 0#5, 0#5, 31#5, 0xFFFFFFFE#32⟩,
      ⟨0xAAAAAAEF#32, .J, 0b1101111#7, 0#3, 0#7, 0#5, 0#5, 21#5, 0xFFFAA2AA#32⟩,
      ⟨0x5555556F#32, .J, 0b1101111#7, 0#3, 0#7, 0#5, 0#5, 10#5, 0x00055D54#32⟩,
      ⟨0x8000006F#32, .J, 0b1101111#7, 0#3, 0#7, 0#5, 0#5, 0#5, 0xFFF00000#32⟩] ++ [
      ⟨0xFFFFFFF3#32, .NOP, 0b1110011#7, 0#3, 0#7, 0#5, 0#5, 0#5, 0#32⟩,
      ⟨0xAAAAAAF3#32, .NOP, 0b1110011#7, 0#3, 0#7, 0#5, 0#5, 0#5, 0#32⟩,
      ⟨0x55555573#32, .NOP, 0b1110011#7, 0#3, 0#7, 0#5, 0#5, 0#5, 0#32⟩,
      ⟨0x80000073#32, .NOP, 0b1110011#7, 0#3, 0#7, 0#5, 0#5, 0#5, 0#32⟩,
      ⟨0xFFFFFFFF#32, .NOP, 0b1111111#7, 0#3, 0#7, 0#5, 0#5, 0#5, 0#32⟩] : List Inst),
      decodeRecord i.word = i)

/-- 30_encoding.md R120: the reserved cells are exactly these, and a cycle is refused exactly when Decode issues a word
of one; one that is fetched and discarded has no effect: a cycle in which Execute squashes is the same whatever word IF/ID
held. -/
def Obligations.ReservedCellsExactly : Prop :=
  (∀ w : Word,
    (decode w = .error .registerFunct7 ↔ w.extractLsb' 0 7 = 0b0110011#7
      ∧ w.extractLsb' 25 7 ∉ [0b0000000#7, 0b0100000#7, 0b0000001#7])
    ∧ (decode w = .error .invertedFunct3 ↔ w.extractLsb' 0 7 = 0b0110011#7 ∧ w.extractLsb' 25 7 = 0b0100000#7
      ∧ w.extractLsb' 12 3 ∉ [0b000#3, 0b101#3])
    ∧ (decode w = .error .loadFunct3 ↔ w.extractLsb' 0 7 = 0b0000011#7
      ∧ w.extractLsb' 12 3 ∈ [0b011#3, 0b110#3, 0b111#3])
    ∧ (decode w = .error .storeFunct3 ↔ w.extractLsb' 0 7 = 0b0100011#7
      ∧ w.extractLsb' 12 3 ∈ [0b011#3, 0b100#3, 0b101#3, 0b110#3, 0b111#3])
    ∧ (decode w = .error .branchFunct3 ↔ w.extractLsb' 0 7 = 0b1100011#7
      ∧ w.extractLsb' 12 3 ∈ [0b010#3, 0b011#3]))
  ∧ (∀ s r, cycle s = .refused r ↔
      s.decodeCase = .issue ∧ ∃ c, decode s.ifid.word = .error c ∧ r = .reservedEncoding c)
  ∧ (∀ (s : State) (w : Word), squashes s.idex = true →
      (∃ t, cycle s = .next t) ∧ cycle { s with ifid := { s.ifid with word := w } } = cycle s)

/-- 44_system_unallocated.md R250: a word of none of the nine opcodes decodes to a NOP record; it advances the pc and does
nothing else; it reads no register and so waits on no hazard, writes none, accesses no memory, is predicted `pc + 4`
whatever the predictor holds, and is never refused. -/
def Obligations.UnimplementedOpcodesAreNops : Prop :=
  ∀ w : Word,
    w.extractLsb' 0 7 ∉ [0b0110011#7, 0b0010011#7, 0b0000011#7, 0b1100111#7, 0b0100011#7, 0b1100011#7, 0b0110111#7,
      0b0010111#7, 0b1101111#7] →
    let I := decodeRecord w
    I = { word := w, fmt := .NOP, opcode := w.extractLsb' 0 7, funct3 := 0#3, funct7 := 0#7, rs1 := 0#5, rs2 := 0#5,
          rd := 0#5, imm := 0#32 }
    ∧ I.reads = [] ∧ I.producer = false ∧ I.isLoad = false ∧ I.isStore = false ∧ I.isBranch = false ∧ I.isCf = false
    ∧ (∃ i, decode w = .ok i ∧ ∀ s, ∃ t, exec i s = .next t ∧ AdvancesOnly s t)
    ∧ (∀ p ctr hist pc, predictNext p ctr hist w pc = pc + 4#32)
    ∧ (∀ s : State, s.ifid.word = w → s.hazard = false ∧ s.issuesReserved = none)

/-- A few words written out from the spec's encodings decode to the instructions they stand for. -/
def Obligations.WrittenOutWordsDecode : Prop :=
  decode 0x002081B3#32 = .ok (.add 3#5 1#5 2#5)
  ∧ decode 0x0220E1B3#32 = .ok (.rem 3#5 1#5 2#5)
  ∧ decode 0x4040D193#32 = .ok (.srai 3#5 1#5 0x404#12)
  ∧ decode 0x123451B7#32 = .ok (.lui 3#5 0x12345#20)
  ∧ decode 0xFFDFF06F#32 = .ok (.jal 0#5 0x1FFFFC#21)
  ∧ decode 0x004280E7#32 = .ok (.jalr 1#5 5#5 4#12 0#3)
  ∧ decode 0xFE209CE3#32 = .ok (.bne 1#5 2#5 0x1FF8#13)
  ∧ decode 0xFFC0A183#32 = .ok (.lw 3#5 1#5 0xFFC#12)
  ∧ decode 0xFE209F23#32 = .ok (.sh 2#5 1#5 0xFFE#12)
  ∧ decode 0xC00020F3#32 = .ok (.csrrs 1#5 0xC00#12 0#5)
  ∧ decode 0x1820A1AF#32 = .ok (.scW 3#5 1#5 2#5 0#2)
  ∧ decode 0xFFFFFFFF#32 = .ok (.anyOther 0xFFFFFFFF#32)

/-! ## What the instructions do

Each conclusion says that the word is the instruction, that executing it answers a next state, and all that this
state differs in. -/

/-- 40_integer.md R142 to R151: the register-register instructions. -/
def Obligations.RegisterRegisterResults : Prop :=
  ∀ (s : State) (rd rs1 rs2 : Reg),
    let x := s.readReg rs1
    let y := s.readReg rs2
    let k := y.toNat % 32
    let base := fun (f3 : BitVec 3) => wordR 0b0000000#7 rs2 rs1 f3 rd 0b0110011#7
    let inverted := fun (f3 : BitVec 3) => wordR 0b0100000#7 rs2 rs1 f3 rd 0b0110011#7
    let gives := fun (v : Word) => WritesOnly s rd v (s.pcF + 4#32)
    Means (base 0#3) (.add rd rs1 rs2) s (gives (BitVec.ofNat 32 (x.toNat + y.toNat)))
    ∧ Means (inverted 0#3) (.sub rd rs1 rs2) s (gives (BitVec.ofInt 32 ((x.toNat : Int) - (y.toNat : Int))))
    ∧ Means (base 1#3) (.sll rd rs1 rs2) s (gives (BitVec.ofNat 32 (x.toNat * 2 ^ k)))
    ∧ Means (base 2#3) (.slt rd rs1 rs2) s (gives (if x.toInt < y.toInt then 1#32 else 0#32))
    ∧ Means (base 3#3) (.sltu rd rs1 rs2) s (gives (if x.toNat < y.toNat then 1#32 else 0#32))
    ∧ Means (base 4#3) (.xor rd rs1 rs2) s (gives (x ^^^ y))
    ∧ Means (base 5#3) (.srl rd rs1 rs2) s (gives (BitVec.ofNat 32 (x.toNat / 2 ^ k)))
    ∧ Means (inverted 5#3) (.sra rd rs1 rs2) s (gives (BitVec.ofInt 32 (x.toInt / 2 ^ k)))
    ∧ Means (base 6#3) (.or rd rs1 rs2) s (gives (x ||| y))
    ∧ Means (base 7#3) (.and rd rs1 rs2) s (gives (x &&& y))

/-- 41_muldiv.md R182 to R185: the multiply instructions keep one half of the exact 64-bit product. -/
def Obligations.MultiplyResults : Prop :=
  ∀ (s : State) (rd rs1 rs2 : Reg),
    let x := s.readReg rs1
    let y := s.readReg rs2
    let m := fun (f3 : BitVec 3) => wordR 0b0000001#7 rs2 rs1 f3 rd 0b0110011#7
    let gives := fun (n : Int) => WritesOnly s rd (BitVec.ofInt 32 n) (s.pcF + 4#32)
    Means (m 0#3) (.mul rd rs1 rs2) s (gives (x.toInt * y.toInt))
    ∧ Means (m 1#3) (.mulh rd rs1 rs2) s (gives (x.toInt * y.toInt / 2 ^ 32))
    ∧ Means (m 2#3) (.mulhsu rd rs1 rs2) s (gives (x.toInt * (y.toNat : Int) / 2 ^ 32))
    ∧ Means (m 3#3) (.mulhu rd rs1 rs2) s (gives ((x.toNat : Int) * (y.toNat : Int) / 2 ^ 32))

/-- 41_muldiv.md R186 to R189: the divide instructions, rounding toward zero, and their special cases, which trap
nowhere. -/
def Obligations.DivideResults : Prop :=
  ∀ (s : State) (rd rs1 rs2 : Reg),
    let x := s.readReg rs1
    let y := s.readReg rs2
    let m := fun (f3 : BitVec 3) => wordR 0b0000001#7 rs2 rs1 f3 rd 0b0110011#7
    let gives := fun (v : Word) => WritesOnly s rd v (s.pcF + 4#32)
    let quot := x.toInt.tdiv y.toInt
    Means (m 4#3) (.div rd rs1 rs2) s (gives
      (if y = 0#32 then 0xFFFFFFFF#32 else if x = 0x80000000#32 ∧ y = 0xFFFFFFFF#32 then 0x80000000#32
        else BitVec.ofInt 32 quot))
    ∧ Means (m 5#3) (.divu rd rs1 rs2) s (gives
      (if y = 0#32 then 0xFFFFFFFF#32 else BitVec.ofNat 32 (x.toNat / y.toNat)))
    ∧ Means (m 6#3) (.rem rd rs1 rs2) s (gives
      (if y = 0#32 then x else if x = 0x80000000#32 ∧ y = 0xFFFFFFFF#32 then 0#32
        else BitVec.ofInt 32 (x.toInt - y.toInt * quot)))
    ∧ Means (m 7#3) (.remu rd rs1 rs2) s (gives
      (if y = 0#32 then x else BitVec.ofNat 32 (x.toNat % y.toNat)))

/-- 41_muldiv.md R181: dividend = quotient × divisor + remainder modulo 2^32, for every pair of operands; a remainder
that is not 0 has the sign of the dividend, and is smaller than a divisor that is not 0. -/
def Obligations.DivisionIdentity : Prop :=
  ∀ (s : State) (rd rs1 rs2 : Reg), rd ≠ 0#5 →
    let x := s.readReg rs1
    let y := s.readReg rs2
    ∃ q r qu ru, exec (.div rd rs1 rs2) s = .next q ∧ exec (.rem rd rs1 rs2) s = .next r
      ∧ exec (.divu rd rs1 rs2) s = .next qu ∧ exec (.remu rd rs1 rs2) s = .next ru
      ∧ q.readReg rd * y + r.readReg rd = x
      ∧ qu.readReg rd * y + ru.readReg rd = x
      ∧ (0 < (r.readReg rd).toInt → 0 < x.toInt) ∧ ((r.readReg rd).toInt < 0 → x.toInt < 0)
      ∧ (y ≠ 0#32 → (r.readReg rd).toInt.natAbs < y.toInt.natAbs ∧ (ru.readReg rd).toNat < y.toNat)

/-- 40_integer.md R152 to R160: the register-immediate instructions. The immediate is sign-extended first, also where
it is compared unsigned; a shift amount is its low 5 bits, SRLI and SRAI being told apart by its bit 10 alone. -/
def Obligations.RegisterImmediateResults : Prop :=
  ∀ (s : State) (rd rs1 : Reg) (imm : BitVec 12),
    let x := s.readReg rs1
    let v := imm.signExtend 32
    let k := imm.toNat % 32
    let w := fun (f3 : BitVec 3) => wordI imm rs1 f3 rd 0b0010011#7
    let gives := fun (r : Word) => WritesOnly s rd r (s.pcF + 4#32)
    Means (w 0#3) (.addi rd rs1 imm) s (gives (BitVec.ofInt 32 (x.toInt + imm.toInt)))
    ∧ Means (w 2#3) (.slti rd rs1 imm) s (gives (if x.toInt < imm.toInt then 1#32 else 0#32))
    ∧ Means (w 3#3) (.sltiu rd rs1 imm) s (gives (if x.toNat < v.toNat then 1#32 else 0#32))
    ∧ Means (w 4#3) (.xori rd rs1 imm) s (gives (x ^^^ v))
    ∧ Means (w 6#3) (.ori rd rs1 imm) s (gives (x ||| v))
    ∧ Means (w 7#3) (.andi rd rs1 imm) s (gives (x &&& v))
    ∧ Means (w 1#3) (.slli rd rs1 imm) s (gives (BitVec.ofNat 32 (x.toNat * 2 ^ k)))
    ∧ (imm.getLsbD 10 = false →
        Means (w 5#3) (.srli rd rs1 imm) s (gives (BitVec.ofNat 32 (x.toNat / 2 ^ k))))
    ∧ (imm.getLsbD 10 = true →
        Means (w 5#3) (.srai rd rs1 imm) s (gives (BitVec.ofInt 32 (x.toInt / 2 ^ k))))

/-- 40_integer.md R161, R162: LUI and AUIPC. -/
def Obligations.UpperImmediateResults : Prop :=
  ∀ (s : State) (rd : Reg) (imm20 : BitVec 20),
    Means (wordU imm20 rd 0b0110111#7) (.lui rd imm20) s
      (WritesOnly s rd (BitVec.ofNat 32 (imm20.toNat * 2 ^ 12)) (s.pcF + 4#32))
    ∧ Means (wordU imm20 rd 0b0010111#7) (.auipc rd imm20) s
      (WritesOnly s rd (BitVec.ofNat 32 (s.pcF.toNat + imm20.toNat * 2 ^ 12)) (s.pcF + 4#32))

/-- 42_control.md R204, R205: the jumps write the link `pc + 4` and go to their target; JALR's uses the register as it
was before the link was written, and clears bit 0 of the sum; its funct3 is not inspected. -/
def Obligations.JumpResults : Prop :=
  ∀ (s : State) (rd rs1 : Reg),
    (∀ off : BitVec 21, off.getLsbD 0 = false → Means (wordJ off rd 0b1101111#7) (.jal rd off) s
      (WritesOnly s rd (s.pcF + 4#32) (BitVec.ofInt 32 (s.pcF.toInt + off.toInt))))
    ∧ (∀ (imm : BitVec 12) (f3 : BitVec 3), Means (wordI imm rs1 f3 rd 0b1100111#7) (.jalr rd rs1 imm f3) s
      (WritesOnly s rd (s.pcF + 4#32) ((s.readReg rs1 + imm.signExtend 32) &&& 0xFFFFFFFE#32)))

/-- 42_control.md R206 to R211: the conditional branches. -/
def Obligations.BranchResults : Prop :=
  ∀ (s : State) (rs1 rs2 : Reg) (off : BitVec 13), off.getLsbD 0 = false →
    let x := s.readReg rs1
    let y := s.readReg rs2
    let w := fun (f3 : BitVec 3) => wordB off rs2 rs1 f3 0b1100011#7
    let goes := fun (taken : Bool) =>
      BranchesOnly s taken (if taken then BitVec.ofInt 32 (s.pcF.toInt + off.toInt) else s.pcF + 4#32)
    Means (w 0#3) (.beq rs1 rs2 off) s (goes (decide (x = y)))
    ∧ Means (w 1#3) (.bne rs1 rs2 off) s (goes (decide (x ≠ y)))
    ∧ Means (w 4#3) (.blt rs1 rs2 off) s (goes (decide (x.toInt < y.toInt)))
    ∧ Means (w 5#3) (.bge rs1 rs2 off) s (goes (decide (x.toInt ≥ y.toInt)))
    ∧ Means (w 6#3) (.bltu rs1 rs2 off) s (goes (decide (x.toNat < y.toNat)))
    ∧ Means (w 7#3) (.bgeu rs1 rs2 off) s (goes (decide (x.toNat ≥ y.toNat)))

/-- 43_loadstore.md R234 to R238: the loads, at any address, with the extension of each. -/
def Obligations.LoadResults : Prop :=
  ∀ (s : State) (rd rs1 : Reg) (imm : BitVec 12),
    let a := effAddr (s.readReg rs1) imm
    let M := fun (k : Nat) => readByte s.params s.mem (a + BitVec.ofNat 32 k)
    let w := fun (f3 : BitVec 3) => wordI imm rs1 f3 rd 0b0000011#7
    let gives := fun (v : Word) => WritesOnly s rd v (s.pcF + 4#32)
    Means (w 0#3) (.lb rd rs1 imm) s (gives ((M 0).signExtend 32))
    ∧ Means (w 1#3) (.lh rd rs1 imm) s (gives ((M 1 ++ M 0).signExtend 32))
    ∧ Means (w 2#3) (.lw rd rs1 imm) s (gives (M 3 ++ M 2 ++ M 1 ++ M 0))
    ∧ Means (w 4#3) (.lbu rd rs1 imm) s (gives ((M 0).zeroExtend 32))
    ∧ Means (w 5#3) (.lhu rd rs1 imm) s (gives ((M 1 ++ M 0).zeroExtend 32))

/-- 43_loadstore.md R239 to R241: the stores, at any address; every byte outside the stored ones reads as before. -/
def Obligations.StoreResults : Prop :=
  ∀ (s : State) (rs2 rs1 : Reg) (imm : BitVec 12), s.params.legal = true →
    let a := effAddr (s.readReg rs1) imm
    let w := fun (f3 : BitVec 3) => wordS imm rs2 rs1 f3 0b0100011#7
    let stores := fun (n : Nat) => StoresOnly s a n (s.readReg rs2)
    Means (w 0#3) (.sb rs2 rs1 imm) s (stores 1)
    ∧ Means (w 1#3) (.sh rs2 rs1 imm) s (stores 2)
    ∧ Means (w 2#3) (.sw rs2 rs1 imm) s (stores 4)

/-- 44_system_unallocated.md R251 to R262: fences, environment call, breakpoint, CSR access and the privileged instructions
advance the pc and do nothing else: no trap, no register written, none read. So does every other word of the MISC-MEM
and SYSTEM opcodes. -/
def Obligations.SystemWordsAreNops : Prop :=
  ∀ (s : State) (rd rs1 rs2 : Reg) (imm : BitVec 12),
    let nop := AdvancesOnly s
    let csr := fun (f3 : BitVec 3) => wordI imm rs1 f3 rd 0b1110011#7
    Means (wordI imm rs1 0#3 rd 0b0001111#7) (.fence rd rs1 imm) s nop
    ∧ Means (wordI imm rs1 1#3 rd 0b0001111#7) (.fenceI rd rs1 imm) s nop
    ∧ Means 0x00000073#32 .ecall s nop
    ∧ Means 0x00100073#32 .ebreak s nop
    ∧ Means (csr 1#3) (.csrrw rd imm rs1) s nop
    ∧ Means (csr 2#3) (.csrrs rd imm rs1) s nop
    ∧ Means (csr 3#3) (.csrrc rd imm rs1) s nop
    ∧ Means (csr 5#3) (.csrrwi rd imm rs1) s nop
    ∧ Means (csr 6#3) (.csrrsi rd imm rs1) s nop
    ∧ Means (csr 7#3) (.csrrci rd imm rs1) s nop
    ∧ Means 0x30200073#32 .mret s nop
    ∧ Means 0x10200073#32 .sret s nop
    ∧ Means 0x10500073#32 .wfi s nop
    ∧ Means (wordR 0b0001001#7 rs2 rs1 0#3 0#5 0b1110011#7) (.sfenceVma rs1 rs2) s nop
    ∧ (∀ w : Word, w.extractLsb' 0 7 ∈ [0b0001111#7, 0b1110011#7] → ∃ i, Means w i s nop)

/-- 44_system_unallocated.md R263 to R265: the atomics, the floating-point, 64-bit-only and custom opcodes and every other
word of no implemented opcode advance the pc and do nothing else. -/
def Obligations.UnallocatedWordsAreNops : Prop :=
  ∀ (s : State) (rd rs1 rs2 : Reg) (aqrl : BitVec 2) (rest : BitVec 25) (w : Word),
    let nop := AdvancesOnly s
    Means (wordR (0b00010#5 ++ aqrl) 0#5 rs1 2#3 rd 0b0101111#7) (.lrW rd rs1 aqrl) s nop
    ∧ Means (wordR (0b00011#5 ++ aqrl) rs2 rs1 2#3 rd 0b0101111#7) (.scW rd rs1 rs2 aqrl) s nop
    ∧ (isLrRest rest = false → isScRest rest = false → Means (rest ++ 0b0101111#7) (.amo rest) s nop)
    ∧ Means (rest ++ 0b0000111#7) (.loadFp rest) s nop
    ∧ Means (rest ++ 0b0100111#7) (.storeFp rest) s nop
    ∧ Means (rest ++ 0b1010011#7) (.opFp rest) s nop
    ∧ Means (rest ++ 0b1000011#7) (.fmadd rest) s nop
    ∧ Means (rest ++ 0b1000111#7) (.fmsub rest) s nop
    ∧ Means (rest ++ 0b1001011#7) (.fnmsub rest) s nop
    ∧ Means (rest ++ 0b1001111#7) (.fnmadd rest) s nop
    ∧ Means (rest ++ 0b0111011#7) (.op32 rest) s nop
    ∧ Means (rest ++ 0b0011011#7) (.opImm32 rest) s nop
    ∧ Means (rest ++ 0b0001011#7) (.custom0 rest) s nop
    ∧ Means (rest ++ 0b0101011#7) (.custom1 rest) s nop
    ∧ Means (rest ++ 0b1011011#7) (.custom2 rest) s nop
    ∧ Means (rest ++ 0b1111011#7) (.custom3 rest) s nop
    ∧ (isOtherWord w = true → Means w (.anyOther w) s nop)
    ∧ (w.extractLsb' 0 2 ≠ 0b11#2 → ∃ i, Means w i s nop)

/-- What the decoded record says bounds what the instruction may change, for every instruction: a register only if the
record is a producer's and names it as rd, memory only if it is a store, the predictor only if it is a branch, the pc's
advance only if it transfers control, and nothing else at all. -/
def Obligations.RecordBoundsTheEffect : Prop :=
  ∀ (i : Instr) (s t : State), i.wf = true → exec i s = .next t →
    let I := decodeRecord (encode i)
    ControlKept s t
    ∧ (∀ r, (I.producer = false ∨ r ≠ I.rd) → t.readReg r = s.readReg r ∧ t.unwritten r = s.unwritten r)
    ∧ (I.isStore = false → MemoryKept s t)
    ∧ (I.isBranch = false → PredictorKept s t)
    ∧ (I.isCf = false → t.pcF = s.pcF + 4#32)

/-- The model's report of a read of a register nothing has written (DESIGN CHOICE, notes/assumptions/3.md): kept once
made, and made exactly by an instruction whose format reads such a register (10_state.md R34, R35). -/
def Obligations.UnwrittenReadsAreReported : Prop :=
  ∀ (i : Instr) (s t : State), i.wf = true → exec i s = .next t → Reports s t (decodeRecord (encode i)).reads

/-! ## Memory and registers -/

/-- 20_memory.md R72: the byte at the lowest address is the least significant; each byte's address is masked by itself. -/
def Obligations.MemoryReadIsLittleEndian : Prop :=
  ∀ (p : Params) (m : Memory) (a : Word),
    let M := fun (i : Nat) => (sparseGet 0#8 m (((a.toNat + i) % 2 ^ 32) &&& (p.memSize - 1))).toNat
    (readByte p m a).toNat = M 0
    ∧ (readHalf p m a).toNat = M 0 + 2 ^ 8 * M 1
    ∧ (readWord p m a).toNat = M 0 + 2 ^ 8 * M 1 + 2 ^ 16 * M 2 + 2 ^ 24 * M 3

/-- 20_memory.md R73: a write of 1, 2 or 4 bytes sets exactly its bytes; the canonical form of memory is kept. -/
def Obligations.MemoryWriteSetsItsBytesOnly : Prop :=
  ∀ (p : Params) (m : Memory) (a v : Word), p.legal = true →
    let address := fun (i : Nat) => ((a.toNat + i) % 2 ^ 32) &&& (p.memSize - 1)
    ∀ e ∈ [(1, writeByte p m a (v.extractLsb' 0 8)), (2, writeHalf p m a (v.extractLsb' 0 16)), (4, writeWord p m a v)],
      (∀ i < e.1, sparseGet 0#8 e.2 (address i) = v.extractLsb' (8 * i) 8)
      ∧ (∀ k, (∀ i < e.1, k ≠ address i) → sparseGet 0#8 e.2 k = sparseGet 0#8 m k)
      ∧ (Memory.wf p.memSize m = true → Memory.wf p.memSize e.2 = true)

/-- 20_memory.md R75: mixed-width access. -/
def Obligations.MixedWidthAccess : Prop :=
  ∀ (p : Params) (m : Memory) (a v : Word) (b : Byte), p.legal = true →
    let m' := writeWord p m a 0x11223344#32
    readByte p m' a = 0x44#8 ∧ readByte p m' (a + 1#32) = 0x33#8 ∧ readHalf p m' a = 0x3344#16
      ∧ readHalf p m' (a + 2#32) = 0x1122#16
      ∧ (∀ i < 4, ∀ j < 4,
          readByte p (writeByte p (writeWord p m a v) (a + BitVec.ofNat 32 i) b) (a + BitVec.ofNat 32 j)
            = if i = j then b else v.extractLsb' (8 * j) 8)

/-- 20_memory.md R82: a word written at an address is read back at the masked address. -/
def Obligations.WordWraparound : Prop :=
  ∀ (p : Params) (m : Memory) (a v : Word), p.legal = true →
    readWord p (writeWord p m a v) (BitVec.ofNat 32 (a.toNat &&& (p.memSize - 1))) = v

/-- 10_state.md R31: x0 reads 0, also by forwarding and in the host's snapshot, and a write to it is never observed. -/
def Obligations.RegisterZeroIsHardwired : Prop :=
  ∀ (s : State) (v : Word),
    s.readReg 0#5 = 0#32 ∧ s.writeReg 0#5 v = s ∧ operandValue s 0#5 = 0#32 ∧ s.snapshot[0]? = some 0#32
      ∧ (∀ t, cycle s = .next t → s.memwb.inst.rd = 0#5 → t.regs = s.regs ∧ t.written = s.written)

/-! ## The step -/

/-- With no host action waiting, a step at the instruction level runs the instruction that the four bytes at the PC
decode to, once what is in flight has completed; in a state with nothing in flight that is the state itself. -/
def Obligations.StepRunsTheDecodedInstruction : Prop :=
  ∀ (s : State) (i : Instr), s.params.legal = true → s.inbox = [] → s.pace = .instruction → s.irqActive = false →
    let f := s.flush
    let M := fun (k : Nat) => readByte f.params f.mem (f.pcF + BitVec.ofNat 32 k)
    decodeBytes [M 0, M 1, M 2, M 3] = .ok (i, []) →
      step s = exec i f ∧ (s.quiet = true → step s = exec i s)

/-- 60_exceptions.md R414, R417 at the instruction level: with a countdown running, a step completes what is in flight
and enters the handler; only the link register receives a value, the return address. -/
def Obligations.StepTakesTheInterrupt : Prop :=
  ∀ s : State, s.params.legal = true → s.inbox = [] → s.pace = .instruction → s.irqActive = true →
    ∃ t, step s = .next t ∧ WritesReg s.flush t s.params.irqLink s.flush.retAddr ∧ t.pcF = s.params.irqHandler
      ∧ MemoryKept s.flush t ∧ PredictorKept s.flush t ∧ t.irqActive = false ∧ t.irqCnt = 0
      ∧ t.blockIrq = s.blockIrq

/-- When a step is refused: a reserved word is issued, or a program is loaded that does not fit or whose memory size the
parameters do not allow. Which word a step issues depends on the pace and, at the instruction level, on the completion of
what is in flight (DESIGN CHOICE, notes/assumptions/1.md). -/
def Obligations.StepRefusesExactly : Prop :=
  ∀ s : State, s.params.legal = true →
    ((∃ r, step s = .refused r) ↔
      (s.inbox = [] ∧ s.pace = .instruction ∧ s.irqActive = false ∧ ∃ c, decode s.flush.fetchWord = .error c)
      ∨ (s.inbox = [] ∧ s.pace = .cycle ∧ s.decodeCase = .issue ∧ ∃ c, decode s.ifid.word = .error c)
      ∨ (∃ rest, s.inbox = .clock :: rest ∧ s.decodeCase = .issue ∧ ∃ c, decode s.ifid.word = .error c)
      ∨ (∃ k image rest, s.inbox = .loadProgram k image :: rest
          ∧ (({ s.params with memLog := k } : Params).legal = false ∨ 2 ^ k < image.length)))

/-- 60_exceptions.md R400: no instruction, cycle or host action faults; the model's only fault is for parameters outside the
ranges of 00_scope.md R8 (DESIGN CHOICE, notes/assumptions/10.md). The model's fault on reading a register nothing has
written, which R402 lists, is here a report and no fault (DESIGN CHOICE, notes/assumptions/3.md). -/
def Obligations.StepFaultsOnIllegalParametersOnly : Prop :=
  (∀ s f, step s = .fault f ↔ s.params.legal = false ∧ f = .illegalParameters)
  ∧ (∀ i s, ∃ t, exec i s = .next t)
  ∧ (∀ s f, cycle s ≠ .fault f)

/-- Every step keeps the invariant: legal parameters, memory and predictor in canonical form, an unwritten register at
its reset value (DESIGN CHOICE, notes/assumptions/3.md), and what ties the fetch registers, the pipeline and the
interrupt state together. -/
def Obligations.StepKeepsInvariant : Prop := ∀ s t : State, s.Inv → step s = .next t → t.Inv

/-- The state after reset meets the invariant, with nothing in flight, for every legal choice of the parameters. -/
def Obligations.ResetMeetsInvariant : Prop :=
  (∀ p : Params, p.legal = true → (State.initial p).Inv ∧ (State.initial p).quiet = true) ∧ State.reset.Inv

/-- The instruction level leaves nothing in flight, and Fetch at the PC (the model's form of an architectural state,
DESIGN CHOICE, notes/assumptions/1.md). -/
def Obligations.InstructionLevelStaysQuiet : Prop :=
  ∀ s t : State, runInstruction s = .next t → t.quiet = true

/-- 42_control.md R202: from an even pc every instruction goes to an even pc. -/
def Obligations.EvenPcKept : Prop :=
  ∀ (i : Instr) (s t : State), i.wf = true → s.pcF.getLsbD 0 = false → exec i s = .next t → t.pcF.getLsbD 0 = false

/-! ## The pipeline against the reference interpreter -/

/-- 50_pipeline.md R350, R351, one cycle: a cycle that issues no word of the program leaves what the reference
interpreter sees as it was; one that issues a word is one step of the interpreter, and is refused where the interpreter
refuses, provided no store hits the fetch window of that word. -/
def Obligations.CycleRefinesInterpreter : Prop :=
  ∀ s : State, s.PipeOk → s.irqActive = false →
    (∀ t, cycle s = .next t → s.issuesProgramWord = false → t.flush = s.flush)
    ∧ (∀ t, cycle s = .next t → s.issuesProgramWord = true → s.fetchCoherent = true →
        runInstruction s = .next t.flush)
    ∧ (∀ r, cycle s = .refused r → s.fetchCoherent = true → runInstruction s = .refused r)

/-- 50_pipeline.md R350, a run: however many cycles the pipeline runs, with no host event and no store into its own fetch
window, the reference interpreter reaches the same registers, memory and next instruction in some number of
instructions, at most one per cycle. -/
def Obligations.PipelineRunRefinesInterpreterRun : Prop :=
  ∀ (n : Nat) (s t : State), s.PipeOk → s.irqActive = false → CoherentFor n s → cycles n s = .next t →
    ∃ k ≤ n, instructions k s.flush = .next t.flush

/-- 50_pipeline.md R345: the predictor never changes what the instructions do, only its own contents. -/
def Obligations.PredictorNeverChangesResults : Prop :=
  ∀ (s : State) (ctr : List (Nat × BitVec 2)) (hist : List (Nat × BitVec 8)),
    let s' := { s with ctr := ctr, hist := hist }
    (∀ t, runInstruction s = .next t → ∃ ctr' hist', runInstruction s' = .next { t with ctr := ctr', hist := hist' })
    ∧ (∀ r, runInstruction s = .refused r → runInstruction s' = .refused r)

/-- 50_pipeline.md R326, R351 (a): a resolved operand is the value the register has once every issued instruction has
completed; the report of an unwritten read (DESIGN CHOICE, notes/assumptions/3.md) is made on the same ground. -/
def Obligations.OperandForwarding : Prop :=
  ∀ (s : State) (r : Reg), operandSource s r ≠ .unresolved →
    operandValue s r = s.flush.readReg r ∧ operandUnwritten s r = s.flush.unwritten r

/-- 50_pipeline.md R330: a hazard bubbles Decode and freezes Fetch for exactly one cycle, after which the same word is
issued. -/
def Obligations.HazardStallLastsOneCycle : Prop :=
  ∀ s : State, s.irqActive = false → squashes s.idex = false →
    let I := decodeRecord s.ifid.word
    (hasRs1 I.fmt = true ∧ operandSource s I.rs1 = .unresolved ∨ hasRs2 I.fmt = true ∧ operandSource s I.rs2 = .unresolved) →
    ∃ t, cycle s = .next t
      ∧ t.idex = { inst := Inst.bubble, pc := s.ifid.pc, pred := s.ifid.pred, a := 0#32, b := 0#32, irqj := false }
      ∧ t.pcF = s.pcF ∧ t.npcF = s.npcF ∧ t.ifid = s.ifid ∧ t.decodeCase = .issue

/-- 50_pipeline.md R337: a wrong prediction costs exactly one bubble, Fetch reading the word at the right target in the
same cycle and Decode issuing it in the next; a right one costs nothing. -/
def Obligations.MispredictionRecovery : Prop :=
  ∀ s : State, s.irqActive = false → s.idex.inst.isCf = true →
    let target := s.idex.inst.alu s.idex.a s.idex.b s.idex.pc
    (s.idex.irqj = true ∨ target ≠ s.idex.pred →
      ∃ t, cycle s = .next t ∧ t.idex.inst = Inst.bubble ∧ t.pcF = target ∧ t.ifid.pc = target
        ∧ t.ifid.word = readWord t.params t.mem target ∧ t.decodeCase = .issue)
    ∧ (s.idex.irqj = false → target = s.idex.pred → s.hazard = false → s.decodeCase = .issue)

/-- 50_pipeline.md R336: the next PC Fetch predicts for any word it reads, later issued or not, by its opcode alone (a branch
of any funct3), from the predictor as the cycle leaves it (R302); an issued JAL is never mispredicted, an issued JALR
exactly when its target is not `pc + imm`, and a word that transfers no control never redirects. -/
def Obligations.JumpPredictions : Prop :=
  ∀ (s0 : State) (pc : Word),
    let F := fetchAt s0 (signals s0) pc
    let w := F.word
    let op := w.extractLsb' 0 7
    let predicted := fun (ctr : List (Nat × BitVec 2)) (hist : List (Nat × BitVec 8)) =>
      if op = 0b1100011#7 then (if predict s0.params ctr hist pc then pc + sext13 (immBOf w) else pc + 4#32)
      else if op = 0b1101111#7 then pc + sext21 (immJOf w)
      else if op = 0b1100111#7 then pc + sext12 (immIOf w)
      else pc + 4#32
    F.pred = predicted (signals s0).ctr (signals s0).hist
    ∧ (∀ s, cycle s0 = .next s → ((decodeOut s0).stall = false ∨ squashes s0.idex = true) → s.ifid.pc = pc →
        s.ifid = F ∧ s.npcF = predicted s.ctr s.hist)
    ∧ (∀ s t : State, s.ifid = F → s.decodeCase = .issue → cycle s = .next t →
        (op = 0b1101111#7 → squashes t.idex = false)
        ∧ (op = 0b1100111#7 →
            (squashes t.idex = true ↔
              (operandValue s (rs1Of w) + sext12 (immIOf w)) &&& 0xFFFFFFFE#32 ≠ pc + sext12 (immIOf w)))
        ∧ (isCfOpcode op = false → squashes t.idex = false))

/-- 10_state.md R46 and 50_pipeline.md R310: ID/EX, EX/MEM and MEM/WB transfer in every cycle: ID/EX receives the word
Decode issues with its pc, prediction and resolved operands (R331 case 4), or BUBBLE from a squashed or stalled Decode;
MEM/WB receives the value a load reads, and 0 of any other instruction (R311). IF/ID and the fetch registers keep their
values in a cycle in which Fetch is stalled and receive the word fetched, its address and its prediction in any other.
WriteBack writes the load's value, the link or the ALU result into its destination at the end of the cycle, other
registers keep theirs, and the same value is offered for forwarding in the cycle. -/
def Obligations.StagesTransferAndWriteBack : Prop :=
  ∀ s t : State, cycle s = .next t →
    let W := s.memwb
    let E := s.exmem
    let I := decodeRecord s.ifid.word
    let wbVal := if W.inst.isLoad then W.mdata else if W.inst.isJal || W.inst.isJalr then W.pc + 4#32 else W.alu
    t.exmem.inst = s.idex.inst ∧ t.exmem.pc = s.idex.pc ∧ t.exmem.b = s.idex.b
    ∧ t.exmem.alu = s.idex.inst.alu s.idex.a s.idex.b s.idex.pc
    ∧ t.memwb.inst = s.exmem.inst ∧ t.memwb.pc = s.exmem.pc ∧ t.memwb.alu = s.exmem.alu
    ∧ (E.inst.isLoad = false → t.memwb.mdata = 0#32)
    ∧ (E.inst.isLoad = true →
        (E.inst.funct3 = 0b000#3 → t.memwb.mdata = (readByte s.params s.mem E.alu).signExtend 32)
        ∧ (E.inst.funct3 = 0b001#3 → t.memwb.mdata = (readHalf s.params s.mem E.alu).signExtend 32)
        ∧ (E.inst.funct3 = 0b010#3 → t.memwb.mdata = readWord s.params s.mem E.alu)
        ∧ (E.inst.funct3 = 0b100#3 → t.memwb.mdata = (readByte s.params s.mem E.alu).zeroExtend 32)
        ∧ (E.inst.funct3 = 0b101#3 → t.memwb.mdata = (readHalf s.params s.mem E.alu).zeroExtend 32))
    ∧ (s.decodeCase = .issue →
        t.idex = { inst := I, pc := s.ifid.pc, pred := s.ifid.pred
                   a := if hasRs1 I.fmt then operandValue s I.rs1 else 0#32
                   b := if hasRs2 I.fmt then operandValue s I.rs2 else 0#32
                   irqj := false })
    ∧ (s.decodeCase = .squash ∨ s.decodeCase = .hazard → t.idex.inst = Inst.bubble)
    ∧ (s.decodeCase = .hazard ∨ (s.irqActive = true ∧ squashes s.idex = false) →
        t.ifid = s.ifid ∧ t.pcF = s.pcF ∧ t.npcF = s.npcF)
    ∧ (¬(s.decodeCase = .hazard ∨ (s.irqActive = true ∧ squashes s.idex = false)) →
        t.pcF = (if squashes s.idex then s.idex.inst.alu s.idex.a s.idex.b s.idex.pc else s.npcF)
          ∧ t.ifid = fetchAt s (signals s) t.pcF ∧ t.npcF = t.ifid.pred)
    ∧ (∀ r, t.readReg r =
        if r ≠ 0#5 ∧ W.inst.producer = true ∧ W.inst.rd = r then wbVal else s.readReg r)
    ∧ (∀ r, operandSource s r = .writeBack → operandValue s r = wbVal)

/-- 50_pipeline.md R333, 70_reset_and_hazards.md R531: three cycles after its issue an instruction has written its
register: the registers then hold what completing every instruction issued before gives. -/
def Obligations.RetirementLatency : Prop :=
  ∀ s t : State, cycles 3 s = .next t → ∀ r, t.readReg r = s.flush.readReg r

/-- 50_pipeline.md R311 and 20_memory.md R85. A cycle stores what the store in Memory says, the low 1, 2 or 4 bytes of its
rs2 value at its effective address, and no other byte changes; with no store there, memory is as it was. A word fetched
in a cycle is read from memory as the store of that cycle leaves it; a stalled Fetch keeps its old word. -/
def Obligations.FetchReadsThisCyclesMemory : Prop :=
  ∀ s t : State, cycle s = .next t →
    let E := s.exmem
    (E.inst.isStore = false → t.mem = s.mem ∧ MemoryKept s t)
    ∧ (s.params.legal = true → E.inst.isStore = true →
        ∀ e ∈ [(0b000#3, 1), (0b001#3, 2), (0b010#3, 4)], E.inst.funct3 = e.1 →
          (∀ i < e.2, readByte t.params t.mem (E.alu + BitVec.ofNat 32 i) = E.b.extractLsb' (8 * i) 8)
          ∧ MemoryKeptOutside s t E.alu e.2)
    ∧ (((decodeOut s).stall = true ∧ squashes s.idex = false) → t.ifid = s.ifid)
    ∧ (((decodeOut s).stall = false ∨ squashes s.idex = true) →
        t.ifid.word = readWord t.params t.mem t.ifid.pc ∧ t.pcF = t.ifid.pc
          ∧ t.ifid.pc = if squashes s.idex then s.idex.inst.alu s.idex.a s.idex.b s.idex.pc else s.npcF)

/-! ## The predictor -/

/-- 50_pipeline.md R318, R340, R342: a conditional branch in Execute updates one counter, saturating at 0 and 3, and the
history of its address; nothing else in a cycle touches the predictor. -/
def Obligations.PredictorUpdate : Prop :=
  ∀ s t : State, cycle s = .next t →
    let i := s.idex.pc.toNat &&& (s.params.predSize - 1)
    let h := (sparseGet 0#8 s.hist i).toNat
    let j := (i + h % 4) &&& (s.params.predSize - 1)
    let c := (sparseGet 0#2 s.ctr j).toNat
    let taken := branchCond s.idex.inst.funct3 s.idex.a s.idex.b
    (s.idex.inst.isBranch = true →
      (sparseGet 0#2 t.ctr j).toNat = (if taken then min 3 (c + 1) else c - 1)
      ∧ (sparseGet 0#8 t.hist i).toNat = (2 * h + (if taken then 1 else 0)) % 2 ^ 8
      ∧ (∀ k, k ≠ j → sparseGet 0#2 t.ctr k = sparseGet 0#2 s.ctr k)
      ∧ (∀ k, k ≠ i → sparseGet 0#8 t.hist k = sparseGet 0#8 s.hist k))
    ∧ (s.idex.inst.isBranch = false → t.ctr = s.ctr ∧ t.hist = s.hist)

/-- 50_pipeline.md R344: ten taken outcomes for one address from reset saturate its selected counter at 3 and it is
predicted taken; ten outcomes not taken leave it at 0 and predicted not taken. -/
def Obligations.PredictorSaturation : Prop :=
  ∀ (p : Params) (a : Word), p.legal = true →
    let i := predBase p a
    let after := fun (taken : Bool) (n : Nat) => (fun s : State => s.updatePredictor a taken)^[n] (State.initial p)
    let T := after true 10
    let N := after false 10
    predIndex p (after true 0).hist a = i
    ∧ predIndex p (after true 1).hist a = (i + 1) % p.predSize
    ∧ (∀ n, 2 ≤ n → n ≤ 10 → predIndex p (after true n).hist a = (i + 3) % p.predSize)
    ∧ (sparseGet 0#8 T.hist i).toNat % 4 = 3 ∧ sparseGet 0#2 T.ctr ((i + 3) % p.predSize) = 3#2
    ∧ predict p T.ctr T.hist a = true
    ∧ sparseGet 0#8 N.hist i = 0#8 ∧ sparseGet 0#2 N.ctr i = 0#2 ∧ predict p N.ctr N.hist a = false

/-! ## Progress and the end of a run -/

/-- 50_pipeline.md R352: a word is issued at least once in every IRQ_DRAIN_CYCLES + 3 cycles. -/
def Obligations.Progress : Prop :=
  ∀ s : State, s.PipeOk →
    ∃ k t, k < s.params.irqDrain + 3 ∧ cycles k s = .next t ∧ t.decodeCase = .issue

/-- 70_reset_and_hazards.md R506: once a run has ended at the self-jump at `e`, a cycle with no host event changes no
register and no byte, and the run stays ended: the core does not stop, it goes on issuing the self-jump. -/
def Obligations.EndOfRunPersists : Prop :=
  ∀ (s : State) (e : Word), s.ended e = true → s.npcF = e → s.irqActive = false →
    readWord s.params s.mem e = 0x0000006F#32 →
    ∃ t, cycle s = .next t ∧ t.ended e = true ∧ t.npcF = e ∧ t.irqActive = false ∧ t.mem = s.mem ∧ t.regs = s.regs
      ∧ t.written = s.written ∧ t.params = s.params

/-! ## Interrupts -/

/-- 60_exceptions.md R410, R412: `interrupt()`. An acknowledge (the byte 1 in IRQ_HANDLED) is observed and cleared; then,
if IRQ_EN is not 0 and none is in flight, the interrupt is delivered: the in-flight flag is set and, unless a countdown
runs, the current PC becomes the return address and the countdown starts. -/
def Obligations.InterruptDelivery : Prop :=
  ∀ s : State, s.params.legal = true →
    let t := s.interrupt
    let acked := decide (s.mmio s.params.kIrqHandled = 1#8)
    CoreKept s t ∧ t.uartOut = s.uartOut ∧ t.pace = s.pace
    ∧ t.mmio s.params.kIrqHandled = (if acked then 0#8 else s.mmio s.params.kIrqHandled)
    ∧ MemoryKeptBut s t [s.mmioAddress s.params.kIrqHandled]
    ∧ (s.mmio s.params.kIrqEn ≠ 0#8 → (s.blockIrq = false ∨ acked = true) →
        t.blockIrq = true
        ∧ (s.irqActive = false → t.irqActive = true ∧ t.irqCnt = s.params.irqDrain ∧ t.retAddr = s.pcF)
        ∧ (s.irqActive = true → t.irqActive = true ∧ t.irqCnt = s.irqCnt ∧ t.retAddr = s.retAddr))
    ∧ (s.mmio s.params.kIrqEn = 0#8 ∨ (s.blockIrq = true ∧ acked = false) →
        t.blockIrq = (s.blockIrq && !acked) ∧ t.irqActive = s.irqActive ∧ t.irqCnt = s.irqCnt
          ∧ t.retAddr = s.retAddr)

/-- 60_exceptions.md R431 to R433: each event writes its data byte, if it has one, and its cause code, and then does what
`interrupt()` does; the host's clock and its UART buffer stay as they were (the field `pace` is the model's form of the
clock, notes/assumptions/19.md). -/
def Obligations.EventsWriteTheirBytes : Prop :=
  ∀ (s : State) (b : Byte), s.params.legal = true →
    (∃ t, hostAction (.keypress b) s = .next t ∧ t.mmio s.params.kKbdIn = b
      ∧ t.mmio s.params.kIrqVec = s.params.causeKbd ∧ t.mmio s.params.kIrqHandled = s.interrupt.mmio s.params.kIrqHandled
      ∧ MemoryKeptBut s t ([s.params.kKbdIn, s.params.kIrqVec, s.params.kIrqHandled].map s.mmioAddress)
      ∧ IrqKept s.interrupt t ∧ CoreKept s t ∧ t.pace = s.pace ∧ t.uartOut = s.uartOut)
    ∧ (∃ t, hostAction (.uartKeypress b) s = .next t ∧ t.mmio s.params.kUartRx = b
      ∧ t.mmio s.params.kIrqVec = s.params.causeUart ∧ t.mmio s.params.kIrqHandled = s.interrupt.mmio s.params.kIrqHandled
      ∧ MemoryKeptBut s t ([s.params.kUartRx, s.params.kIrqVec, s.params.kIrqHandled].map s.mmioAddress)
      ∧ IrqKept s.interrupt t ∧ CoreKept s t ∧ t.pace = s.pace ∧ t.uartOut = s.uartOut)
    ∧ (∃ t, hostAction .timerEvent s = .next t
      ∧ t.mmio s.params.kIrqVec = s.params.causeTimer ∧ t.mmio s.params.kIrqHandled = s.interrupt.mmio s.params.kIrqHandled
      ∧ MemoryKeptBut s t ([s.params.kIrqVec, s.params.kIrqHandled].map s.mmioAddress)
      ∧ IrqKept s.interrupt t ∧ CoreKept s t ∧ t.pace = s.pace ∧ t.uartOut = s.uartOut)

/-- 60_exceptions.md R411, R425: of two events at one boundary the second delivers nothing, whichever they are, but it
writes its bytes: IRQ_VEC ends with its cause. -/
def Obligations.AtMostOneEventDelivered : Prop :=
  ∀ (s s1 s2 : State) (a b : HostAction), s.params.legal = true → s.event a = some s1 → s1.event b = some s2 →
    IrqKept s1 s2 ∧ some (s2.mmio s.params.kIrqVec) = b.cause s.params

/-- 60_exceptions.md R413, R414: a countdown cycle issues nothing of the program; the last one issues the IRQ jump to the
instruction that follows all issued ones. What the interpreter sees is kept, but for the count, until the jump, which
enters the handler. -/
def Obligations.CountdownCycle : Prop :=
  ∀ s : State, s.PipeOk → s.irqActive = true →
    ∃ t, cycle s = .next t ∧ t.irqCnt = s.irqCnt - 1
      ∧ (2 ≤ s.irqCnt → t.irqActive = true ∧ t.idex.inst = Inst.bubble
          ∧ t.flush = { s.flush with irqCnt := s.irqCnt - 1 })
      ∧ (s.irqCnt = 1 → t.irqActive = false ∧ t.idex = irqJump s.params s.flush.pcF
          ∧ t.flush = s.flush.takeInterrupt)

/-- 60_exceptions.md R413 to R416: the whole countdown from any state in which one runs. After as many cycles as are left
the IRQ jump is issued, with the effect of the interrupt entry; in the next cycle Fetch reads the word at the handler's
address, behind one bubble, and in the one after Decode issues it. -/
def Obligations.InterruptEntryAfterDrain : Prop :=
  ∀ s : State, s.PipeOk → s.irqActive = true →
    ∃ t u, cycles s.irqCnt s = .next t ∧ t.irqActive = false ∧ t.idex.irqj = true
      ∧ t.flush = s.flush.takeInterrupt
      ∧ cycle t = .next u ∧ u.idex.inst = Inst.bubble ∧ u.ifid.pc = s.params.irqHandler
      ∧ u.ifid.word = readWord u.params u.mem s.params.irqHandler ∧ u.decodeCase = .issue

/-- 60_exceptions.md R415: the return address is the address of the instruction that was about to execute: the one that
follows every issued instruction, also where the PC recorded at the trigger was on a wrong path. -/
def Obligations.ReturnAddressIsTheNextInstruction : Prop :=
  ∀ s : State, s.PipeOk →
    (s.irqActive = true → s.flush.retAddr = s.flush.pcF)
    ∧ (s.irqActive = false → s.irq.irqActive = true ∧ s.irq.flush.retAddr = s.flush.pcF
        ∧ s.irq.flush.pcF = s.flush.pcF)

/-- 60_exceptions.md R420: a handler returns with `jalr x0, 0(IRQ_LINK_REG)`: from the state the entry leaves, it goes back
to the (even) return address and restores nothing but the pc. -/
def Obligations.ReturnFromInterrupt : Prop :=
  ∀ (s : State) (f3 : BitVec 3), s.params.irqLink ≠ 0#5 → s.retAddr.getLsbD 0 = false →
    let h := s.takeInterrupt
    ∃ t, exec (.jalr 0#5 s.params.irqLink 0#12 f3) h = .next t ∧ t.pcF = s.retAddr ∧ RegsKept h t ∧ MemoryKept h t
      ∧ PredictorKept h t ∧ ControlKept h t

/-! ## The host -/

/-- 60_exceptions.md R434, R435: a timer tick adds 1 modulo 256 to TIMER and changes nothing else; a drain step appends
UART_TX to the host's buffer and clears DATA_READY if that byte is not 0, and else does nothing. -/
def Obligations.TimerTickAndUartDrain : Prop :=
  ∀ s : State, s.params.legal = true →
    (∃ t, hostAction .timerTick s = .next t ∧ (t.mmio s.params.kTimer).toNat = ((s.mmio s.params.kTimer).toNat + 1) % 256
      ∧ MemoryKeptBut s t [s.mmioAddress s.params.kTimer] ∧ t = { s with mem := t.mem })
    ∧ (s.mmio s.params.kDataReady = 0#8 → hostAction .uartDrain s = .next s)
    ∧ (s.mmio s.params.kDataReady ≠ 0#8 → ∃ t, hostAction .uartDrain s = .next t
      ∧ t.mmio s.params.kDataReady = 0#8 ∧ t.uartOut = s.uartOut ++ [s.mmio s.params.kUartTx]
      ∧ MemoryKeptBut s t [s.mmioAddress s.params.kDataReady] ∧ t = { s with mem := t.mem, uartOut := t.uartOut })

/-- 60_exceptions.md R437, 70_reset_and_hazards.md R505: no host agent writes a register, a pipeline register or the
predictor, nor a byte of memory but those listed for it; the clock controls change no core state, and nothing but them
changes the host's clock (the field `pace`, the model's form of it; that a reset or a load keeps it is the model's choice,
notes/assumptions/8.md, 19.md). -/
def Obligations.HostActionFrame : Prop :=
  ∀ (a : HostAction) (s t : State), hostAction a s = .next t →
    t.pace = (if a = .start then .cycle else if a = .stop then .halted else s.pace)
    ∧ (∀ addresses, a.touches s.params = some addresses →
        CoreKept s t ∧ MemoryKeptBut s t addresses
        ∧ ((a = .timerTick ∨ a = .uartDrain ∨ a = .start ∨ a = .stop) → IrqKept s t)
        ∧ (a ≠ .uartDrain → t.uartOut = s.uartOut))

/-- 70_reset_and_hazards.md R505, R507: the host's clock controls. A running clock runs one cycle a step, and starting it
again changes nothing; stopping it changes no core state; while it is stopped no step changes anything, a host action is
applied where the core stands (decision D44), `step()` runs exactly the cycle that was next, and `start()` continues from
the state that was kept. (The field `pace` is the model's form of the clock, notes/assumptions/1.md.) -/
def Obligations.ClockControls : Prop :=
  ∀ s : State, s.params.legal = true → s.inbox = [] → s.pace = .cycle →
    let h : State := { s with pace := .halted }
    step s = cycle s
    ∧ step { s with inbox := [.start] } = .next s
    ∧ step { s with inbox := [.stop] } = .next h
    ∧ (∀ n, Sys2Proof.core.run n h = .next h)
    ∧ (∀ a, step { h with inbox := [a] } = hostAction a h)
    ∧ (∀ t, cycle s = .next t → step { h with inbox := [.clock] } = .next { t with pace := .halted })
    ∧ (∀ r, cycle s = .refused r → step { h with inbox := [.clock] } = .refused r)
    ∧ step { h with inbox := [.start] } = .next s

/-- 70_reset_and_hazards.md R501: `load_program` fills memory with zeros, copies the image to address 0 and resets; an
image longer than memory is refused. -/
def Obligations.LoadProgram : Prop :=
  ∀ (s : State) (k : Nat) (image : List Byte),
    let p := { s.params with memLog := k }
    p.legal = true →
      (image.length ≤ 2 ^ k → ∃ t, hostAction (.loadProgram k image) s = .next t
        ∧ (∀ a < 2 ^ k, sparseGet 0#8 t.mem a = image.getD a 0#8) ∧ Memory.wf (2 ^ k) t.mem = true
        ∧ t = ({ s with params := p, mem := t.mem } : State).coreReset)
      ∧ (2 ^ k < image.length → hostAction (.loadProgram k image) s = .refused .imageTooLarge)

/-- 70_reset_and_hazards.md R502 with the table of R503: `reset()` leaves memory, marks every register unwritten and sets
every other piece of core state to its reset value. -/
def Obligations.ResetState : Prop :=
  ∀ s : State, ∃ t, hostAction .reset s = .next t
    ∧ t.mem = s.mem ∧ (∀ r, t.unwritten r = decide (r ≠ 0#5)) ∧ t.readReg 0#5 = 0#32
    ∧ t.pcF = 0#32 ∧ t.npcF = 0#32
    ∧ t.ifid = { word := 0x00000013#32, pc := 0#32, pred := 0#32 }
    ∧ t.idex = { inst := Inst.bubble, pc := 0#32, pred := 0#32, a := 0#32, b := 0#32, irqj := false }
    ∧ t.exmem = { inst := Inst.bubble, pc := 0#32, alu := 0#32, b := 0#32 }
    ∧ t.memwb = { inst := Inst.bubble, pc := 0#32, alu := 0#32, mdata := 0#32 }
    ∧ (∀ j, sparseGet 0#2 t.ctr j = 0#2) ∧ (∀ j, sparseGet 0#8 t.hist j = 0#8)
    ∧ t.blockIrq = false ∧ t.irqCnt = 0 ∧ t.irqActive = false ∧ t.retAddr = 0#32 ∧ t.params = s.params

/-- 70_reset_and_hazards.md R504: after reset the NOP in IF/ID is issued in cycle 1 without effect, while Fetch reads the
word at 0; that word is issued in cycle 2, executes in cycle 3, is in Memory in cycle 4 and retires in cycle 5; the
observed PC is 0 and stays 0 after cycle 1. -/
def Obligations.FirstInstructionAfterReset : Prop :=
  ∀ s : State,
    let r := s.coreReset
    let w := readWord s.params s.mem 0#32
    ∃ t1, cycle r = .next t1 ∧ r.observedPc = 0#32 ∧ t1.observedPc = 0#32 ∧ t1.ifid.word = w ∧ t1.ifid.pc = 0#32
      ∧ t1.regs = r.regs ∧ t1.mem = r.mem ∧ t1.decodeCase = .issue
      ∧ (∀ t2, cycles 2 r = .next t2 → t2.idex.inst = decodeRecord w ∧ t2.idex.pc = 0#32)
      ∧ (∀ t3, cycles 3 r = .next t3 → t3.exmem.inst = decodeRecord w ∧ t3.exmem.pc = 0#32)
      ∧ (∀ t4, cycles 4 r = .next t4 → t4.memwb.inst = decodeRecord w ∧ t4.memwb.pc = 0#32)
end

