-- ==== Sys2Proof/Laws/Encoding.lean ====
section
/-! SUPPORT. What the decoder's fields are in each layout of the encoder (30_encoding.md R104, R106 to R110). -/

namespace Sys2Proof

@[simp] theorem opcodeOf_wordR (f7 : BitVec 7) (rs2 rs1 : Reg) (f3 : BitVec 3) (rd : Reg) (op : BitVec 7) :
    opcodeOf (wordR f7 rs2 rs1 f3 rd op) = op := by
  unfold opcodeOf wordR
  ext i hi
  simp
  grind

@[simp] theorem rdOf_wordR (f7 : BitVec 7) (rs2 rs1 : Reg) (f3 : BitVec 3) (rd : Reg) (op : BitVec 7) :
    rdOf (wordR f7 rs2 rs1 f3 rd op) = rd := by
  unfold rdOf wordR
  ext i hi
  simp
  grind

@[simp] theorem funct3Of_wordR (f7 : BitVec 7) (rs2 rs1 : Reg) (f3 : BitVec 3) (rd : Reg) (op : BitVec 7) :
    funct3Of (wordR f7 rs2 rs1 f3 rd op) = f3 := by
  unfold funct3Of wordR
  ext i hi
  simp
  grind

@[simp] theorem rs1Of_wordR (f7 : BitVec 7) (rs2 rs1 : Reg) (f3 : BitVec 3) (rd : Reg) (op : BitVec 7) :
    rs1Of (wordR f7 rs2 rs1 f3 rd op) = rs1 := by
  unfold rs1Of wordR
  ext i hi
  simp
  grind

@[simp] theorem rs2Of_wordR (f7 : BitVec 7) (rs2 rs1 : Reg) (f3 : BitVec 3) (rd : Reg) (op : BitVec 7) :
    rs2Of (wordR f7 rs2 rs1 f3 rd op) = rs2 := by
  unfold rs2Of wordR
  ext i hi
  simp
  grind

@[simp] theorem funct7Of_wordR (f7 : BitVec 7) (rs2 rs1 : Reg) (f3 : BitVec 3) (rd : Reg) (op : BitVec 7) :
    funct7Of (wordR f7 rs2 rs1 f3 rd op) = f7 := by
  unfold funct7Of wordR
  ext i hi
  simp
  grind

@[simp] theorem opcodeOf_wordI (imm : BitVec 12) (rs1 : Reg) (f3 : BitVec 3) (rd : Reg) (op : BitVec 7) :
    opcodeOf (wordI imm rs1 f3 rd op) = op := by
  unfold opcodeOf wordI
  ext i hi
  simp
  grind

@[simp] theorem rdOf_wordI (imm : BitVec 12) (rs1 : Reg) (f3 : BitVec 3) (rd : Reg) (op : BitVec 7) :
    rdOf (wordI imm rs1 f3 rd op) = rd := by
  unfold rdOf wordI
  ext i hi
  simp
  grind

@[simp] theorem funct3Of_wordI (imm : BitVec 12) (rs1 : Reg) (f3 : BitVec 3) (rd : Reg) (op : BitVec 7) :
    funct3Of (wordI imm rs1 f3 rd op) = f3 := by
  unfold funct3Of wordI
  ext i hi
  simp
  grind

@[simp] theorem rs1Of_wordI (imm : BitVec 12) (rs1 : Reg) (f3 : BitVec 3) (rd : Reg) (op : BitVec 7) :
    rs1Of (wordI imm rs1 f3 rd op) = rs1 := by
  unfold rs1Of wordI
  ext i hi
  simp
  grind

@[simp] theorem immIOf_wordI (imm : BitVec 12) (rs1 : Reg) (f3 : BitVec 3) (rd : Reg) (op : BitVec 7) :
    immIOf (wordI imm rs1 f3 rd op) = imm := by
  unfold immIOf wordI
  ext i hi
  simp
  grind

@[simp] theorem opcodeOf_wordS (imm : BitVec 12) (rs2 rs1 : Reg) (f3 : BitVec 3) (op : BitVec 7) :
    opcodeOf (wordS imm rs2 rs1 f3 op) = op := by
  unfold opcodeOf wordS
  ext i hi
  simp
  grind

@[simp] theorem funct3Of_wordS (imm : BitVec 12) (rs2 rs1 : Reg) (f3 : BitVec 3) (op : BitVec 7) :
    funct3Of (wordS imm rs2 rs1 f3 op) = f3 := by
  unfold funct3Of wordS
  ext i hi
  simp
  grind

@[simp] theorem rs1Of_wordS (imm : BitVec 12) (rs2 rs1 : Reg) (f3 : BitVec 3) (op : BitVec 7) :
    rs1Of (wordS imm rs2 rs1 f3 op) = rs1 := by
  unfold rs1Of wordS
  ext i hi
  simp
  grind

@[simp] theorem rs2Of_wordS (imm : BitVec 12) (rs2 rs1 : Reg) (f3 : BitVec 3) (op : BitVec 7) :
    rs2Of (wordS imm rs2 rs1 f3 op) = rs2 := by
  unfold rs2Of wordS
  ext i hi
  simp
  grind

@[simp] theorem immSOf_wordS (imm : BitVec 12) (rs2 rs1 : Reg) (f3 : BitVec 3) (op : BitVec 7) :
    immSOf (wordS imm rs2 rs1 f3 op) = imm := by
  unfold immSOf wordS
  apply BitVec.eq_of_getLsbD_eq
  intro i hi
  simp only [BitVec.getLsbD_append, BitVec.getLsbD_extractLsb']
  grind

@[simp] theorem opcodeOf_wordB (off : BitVec 13) (rs2 rs1 : Reg) (f3 : BitVec 3) (op : BitVec 7) :
    opcodeOf (wordB off rs2 rs1 f3 op) = op := by
  unfold opcodeOf wordB
  ext i hi
  simp
  grind

@[simp] theorem funct3Of_wordB (off : BitVec 13) (rs2 rs1 : Reg) (f3 : BitVec 3) (op : BitVec 7) :
    funct3Of (wordB off rs2 rs1 f3 op) = f3 := by
  unfold funct3Of wordB
  ext i hi
  simp
  grind

@[simp] theorem rs1Of_wordB (off : BitVec 13) (rs2 rs1 : Reg) (f3 : BitVec 3) (op : BitVec 7) :
    rs1Of (wordB off rs2 rs1 f3 op) = rs1 := by
  unfold rs1Of wordB
  ext i hi
  simp
  grind

@[simp] theorem rs2Of_wordB (off : BitVec 13) (rs2 rs1 : Reg) (f3 : BitVec 3) (op : BitVec 7) :
    rs2Of (wordB off rs2 rs1 f3 op) = rs2 := by
  unfold rs2Of wordB
  ext i hi
  simp
  grind

@[simp] theorem immBOf_wordB (off : BitVec 13) (rs2 rs1 : Reg) (f3 : BitVec 3) (op : BitVec 7) (h : off[0] = false) :
    immBOf (wordB off rs2 rs1 f3 op) = off := by
  unfold immBOf wordB
  apply BitVec.eq_of_getLsbD_eq
  intro i hi
  simp only [BitVec.getLsbD_append, BitVec.getLsbD_extractLsb']
  by_cases h0 : i = 0
  · subst h0
    simpa [BitVec.getLsbD_eq_getElem] using h.symm
  grind

@[simp] theorem opcodeOf_wordU (imm20 : BitVec 20) (rd : Reg) (op : BitVec 7) :
    opcodeOf (wordU imm20 rd op) = op := by
  unfold opcodeOf wordU
  ext i hi
  simp
  grind

@[simp] theorem rdOf_wordU (imm20 : BitVec 20) (rd : Reg) (op : BitVec 7) :
    rdOf (wordU imm20 rd op) = rd := by
  unfold rdOf wordU
  ext i hi
  simp
  grind

@[simp] theorem immUOf_wordU (imm20 : BitVec 20) (rd : Reg) (op : BitVec 7) :
    immUOf (wordU imm20 rd op) = imm20 := by
  unfold immUOf wordU
  ext i hi
  simp
  grind

@[simp] theorem opcodeOf_wordJ (off : BitVec 21) (rd : Reg) (op : BitVec 7) :
    opcodeOf (wordJ off rd op) = op := by
  unfold opcodeOf wordJ
  ext i hi
  simp
  grind

@[simp] theorem rdOf_wordJ (off : BitVec 21) (rd : Reg) (op : BitVec 7) :
    rdOf (wordJ off rd op) = rd := by
  unfold rdOf wordJ
  ext i hi
  simp
  grind

@[simp] theorem immJOf_wordJ (off : BitVec 21) (rd : Reg) (op : BitVec 7) (h : off[0] = false) :
    immJOf (wordJ off rd op) = off := by
  unfold immJOf wordJ
  apply BitVec.eq_of_getLsbD_eq
  intro i hi
  simp only [BitVec.getLsbD_append, BitVec.getLsbD_extractLsb']
  by_cases h0 : i = 0
  · subst h0
    simpa [BitVec.getLsbD_eq_getElem] using h.symm
  grind

@[simp] theorem opcodeOf_wordRest (rest : BitVec 25) (op : BitVec 7) :
    opcodeOf (wordRest rest op) = op := by
  unfold opcodeOf wordRest
  ext i hi
  simp
  grind

@[simp] theorem restOf_wordRest (rest : BitVec 25) (op : BitVec 7) :
    restOf (wordRest rest op) = rest := by
  unfold restOf wordRest
  ext i hi
  simp
  grind

end Sys2Proof
end

