-- ==== Sys2Proof/Laws/Memory.lean ====
section
/-! SUPPORT. The laws of the sparse arrays and of memory: read after write, what a write leaves alone, and that every
operation keeps the canonical form. -/

namespace Sys2Proof.Machine

variable {α : Type}

/-! ## Reading a sparse array -/

@[simp] theorem sparseGet_nil (d : α) (a : Nat) : sparseGet d [] a = d := rfl

theorem sparseGet_cons (d : α) (k : Nat) (v : α) (m : List (Nat × α)) (a : Nat) :
    sparseGet d ((k, v) :: m) a = if k = a then v else sparseGet d m a := rfl

/-- A key that no entry holds reads the default. -/
theorem sparseGet_absent (d : α) (m : List (Nat × α)) (a : Nat) (h : ∀ e ∈ m, e.1 ≠ a) : sparseGet d m a = d := by
  induction m with
  | nil => rfl
  | cons e m ih =>
    obtain ⟨k, v⟩ := e
    rw [sparseGet_cons, if_neg (h (k, v) (by simp)), ih (fun e he => h e (by simp [he]))]

theorem sparseGet_filter_ne (d : α) (m : List (Nat × α)) (a b : Nat) (h : b ≠ a) :
    sparseGet d (m.filter (fun e => e.1 ≠ a)) b = sparseGet d m b := by
  induction m with
  | nil => rfl
  | cons e m ih =>
    obtain ⟨k, v⟩ := e
    by_cases hk : k = a
    · subst hk
      rw [List.filter_cons_of_neg (by simp), ih, sparseGet_cons, if_neg (fun e => h e.symm)]
    · rw [List.filter_cons_of_pos (by simpa using hk), sparseGet_cons, sparseGet_cons, ih]

theorem sparseGet_insert_self (d : α) (m : List (Nat × α)) (a : Nat) (v : α) (h : ∀ e ∈ m, e.1 ≠ a) :
    sparseGet d (sparseInsert a v m) a = v := by
  induction m with
  | nil => simp [sparseInsert, sparseGet]
  | cons e m ih =>
    obtain ⟨k, w⟩ := e
    have hk : k ≠ a := h (k, w) (by simp)
    unfold sparseInsert
    split
    · simp [sparseGet]
    · rw [sparseGet_cons, if_neg hk, ih (fun e he => h e (by simp [he]))]

theorem sparseGet_insert_ne (d : α) (m : List (Nat × α)) (a b : Nat) (v : α) (h : b ≠ a) :
    sparseGet d (sparseInsert a v m) b = sparseGet d m b := by
  have hab : a ≠ b := fun e => h e.symm
  induction m with
  | nil => simp [sparseInsert, sparseGet, hab]
  | cons e m ih =>
    obtain ⟨k, w⟩ := e
    unfold sparseInsert
    split
    · rw [sparseGet_cons, if_neg hab]
    · rw [sparseGet_cons, sparseGet_cons, ih]

/-! ## Read after write -/

variable [DecidableEq α]

/-- Reading a key just written gives the value written. -/
@[simp] theorem sparseGet_set_self (d : α) (m : List (Nat × α)) (a : Nat) (v : α) :
    sparseGet d (sparseSet d m a v) a = v := by
  unfold sparseSet
  split
  · next h => rw [h, sparseGet_absent]; simp
  · exact sparseGet_insert_self d _ a v (by simp)

/-- A write leaves every other key alone. -/
theorem sparseGet_set_ne (d : α) (m : List (Nat × α)) (a b : Nat) (v : α) (h : b ≠ a) :
    sparseGet d (sparseSet d m a v) b = sparseGet d m b := by
  unfold sparseSet
  split
  · exact sparseGet_filter_ne d m a b h
  · simp only [sparseGet_insert_ne d _ a b v h, sparseGet_filter_ne d m a b h]

/-- Both read-after-write laws at once. -/
theorem sparseGet_set (d : α) (m : List (Nat × α)) (a b : Nat) (v : α) :
    sparseGet d (sparseSet d m a v) b = if b = a then v else sparseGet d m b := by
  split
  · next h => rw [h, sparseGet_set_self]
  · next h => exact sparseGet_set_ne d m a b v h

/-! ## The canonical form -/

theorem sparseWf_iff (d : α) (size : Nat) (m : List (Nat × α)) :
    sparseWf d size m = true ↔
      m.Pairwise (fun x y => x.1 < y.1) ∧ ∀ e ∈ m, e.1 < size ∧ e.2 ≠ d := by
  simp [sparseWf]

@[simp] theorem sparseWf_nil (d : α) (size : Nat) : sparseWf d size [] = true := by simp [sparseWf]

theorem mem_sparseInsert (a : Nat) (v : α) (m : List (Nat × α)) (e : Nat × α) :
    e ∈ sparseInsert a v m ↔ e = (a, v) ∨ e ∈ m := by
  induction m with
  | nil => simp [sparseInsert]
  | cons x m ih =>
    obtain ⟨k, w⟩ := x
    unfold sparseInsert
    split
    · simp
    · simp only [List.mem_cons, ih]
      tauto

theorem pairwise_sparseInsert (a : Nat) (v : α) (m : List (Nat × α))
    (h : m.Pairwise (fun x y => x.1 < y.1)) (ha : ∀ e ∈ m, e.1 ≠ a) :
    (sparseInsert a v m).Pairwise (fun x y => x.1 < y.1) := by
  induction m with
  | nil => simp [sparseInsert]
  | cons x m ih =>
    obtain ⟨k, w⟩ := x
    rw [List.pairwise_cons] at h
    have hk : k ≠ a := ha (k, w) (by simp)
    unfold sparseInsert
    split
    · next hlt =>
      refine List.pairwise_cons.mpr ⟨fun e he => ?_, List.pairwise_cons.mpr h⟩
      rcases List.mem_cons.mp he with rfl | he
      · exact hlt
      · exact Nat.lt_trans hlt (h.1 e he)
    · next hge =>
      refine List.pairwise_cons.mpr ⟨fun e he => ?_, ih h.2 (fun e he => ha e (by simp [he]))⟩
      rcases (mem_sparseInsert a v m e).mp he with rfl | he
      · show k < a
        omega
      · exact h.1 e he

/-- A write within the size keeps the canonical form. -/
theorem sparseWf_set (d : α) (size : Nat) (m : List (Nat × α)) (a : Nat) (v : α) (ha : a < size)
    (h : sparseWf d size m = true) : sparseWf d size (sparseSet d m a v) = true := by
  rw [sparseWf_iff] at h ⊢
  have hp : (m.filter (fun e => e.1 ≠ a)).Pairwise (fun x y => x.1 < y.1) := h.1.filter _
  have hm : ∀ e ∈ m.filter (fun e => e.1 ≠ a), e.1 < size ∧ e.2 ≠ d :=
    fun e he => h.2 e (List.mem_of_mem_filter he)
  unfold sparseSet
  split
  · exact ⟨hp, hm⟩
  · next hv =>
    refine ⟨pairwise_sparseInsert a v _ hp (by simp), fun e he => ?_⟩
    rcases (mem_sparseInsert a v _ e).mp he with rfl | he
    · exact ⟨ha, hv⟩
    · exact hm e he

/-! ## Memory -/

theorem memSize_pos (p : Params) : 0 < p.memSize := Nat.two_pow_pos _

theorem maskAddr_lt (p : Params) (a : Word) : maskAddr p a < p.memSize := Nat.mod_lt _ (memSize_pos p)

/-- One byte read after one byte written. -/
theorem readByte_writeByte (p : Params) (m : Memory) (a b : Word) (v : Byte) :
    readByte p (writeByte p m a v) b = if maskAddr p b = maskAddr p a then v else readByte p m b :=
  sparseGet_set 0#8 m (maskAddr p a) (maskAddr p b) v

@[simp] theorem writeByte_wf (p : Params) (m : Memory) (a : Word) (v : Byte)
    (h : Memory.wf p.memSize m = true) : Memory.wf p.memSize (writeByte p m a v) = true :=
  sparseWf_set 0#8 p.memSize m _ v (maskAddr_lt p a) h

@[simp] theorem writeHalf_wf (p : Params) (m : Memory) (a : Word) (v : BitVec 16)
    (h : Memory.wf p.memSize m = true) : Memory.wf p.memSize (writeHalf p m a v) = true :=
  writeByte_wf p _ _ _ (writeByte_wf p _ _ _ h)

@[simp] theorem writeWord_wf (p : Params) (m : Memory) (a : Word) (v : Word)
    (h : Memory.wf p.memSize m = true) : Memory.wf p.memSize (writeWord p m a v) = true :=
  writeByte_wf p _ _ _ (writeByte_wf p _ _ _ (writeByte_wf p _ _ _ (writeByte_wf p _ _ _ h)))

/-- The masked address of a byte of an access (R71). -/
theorem maskAddr_add (p : Params) (h : p.memLog ≤ 32) (a : Word) (i : Nat) :
    maskAddr p (a + BitVec.ofNat 32 i) = (a.toNat + i) % p.memSize := by
  have hd : p.memSize ∣ 2 ^ 32 := Nat.pow_dvd_pow 2 h
  unfold maskAddr
  rw [BitVec.toNat_add, BitVec.toNat_ofNat, Nat.mod_mod_of_dvd _ hd, Nat.add_mod, Nat.mod_mod_of_dvd _ hd, ← Nat.add_mod]

/-- The bytes of one access lie at distinct addresses. -/
theorem maskAddr_add_inj (p : Params) (h : p.legal = true) (a : Word) {i j : Nat} (hi : i < 4) (hj : j < 4)
    (he : maskAddr p (a + BitVec.ofNat 32 i) = maskAddr p (a + BitVec.ofNat 32 j)) : i = j := by
  have hk : 4 ≤ p.memLog ∧ p.memLog ≤ 32 := by simp [Params.legal] at h; omega
  have h16 : 2 ^ 4 ≤ p.memSize := Nat.pow_le_pow_right (by decide) hk.1
  rw [maskAddr_add p hk.2, maskAddr_add p hk.2] at he
  have := Nat.ModEq.add_left_cancel' (n := p.memSize) a.toNat he
  rwa [Nat.ModEq, Nat.mod_eq_of_lt (by omega), Nat.mod_eq_of_lt (by omega)] at this

/-- A store sets its bytes. -/
theorem readByte_storeValue (p : Params) (h : p.legal = true) (m : Memory) (f3 : BitVec 3) (n : Nat)
    (hn : (f3, n) ∈ [(0#3, 1), (1#3, 2), (2#3, 4)]) (a v : Word) {i : Nat} (hi : i < n) :
    readByte p (storeValue p m f3 a v) (a + BitVec.ofNat 32 i) = v.extractLsb' (8 * i) 8 := by
  have ne := fun (i j : Nat) (hi : i < 4) (hj : j < 4) => maskAddr_add_inj p h a hi hj
  have e01 := ne 0 1
  have e02 := ne 0 2
  have e03 := ne 0 3
  have e12 := ne 1 2
  have e13 := ne 1 3
  have e23 := ne 2 3
  simp at e01 e02 e03 e12 e13 e23
  simp only [List.mem_cons, Prod.mk.injEq, List.not_mem_nil, or_false] at hn
  rcases hn with ⟨rfl, rfl⟩ | ⟨rfl, rfl⟩ | ⟨rfl, rfl⟩ <;> interval_cases i <;>
    simp [storeValue, writeHalf, writeWord, readByte_writeByte, e01, e02, e03, e12, e13, e23]

/-- A store changes no byte but its own. -/
theorem readByte_storeValue_ne (p : Params) (m : Memory) (f3 : BitVec 3) (n : Nat)
    (hn : (f3, n) ∈ [(0#3, 1), (1#3, 2), (2#3, 4)]) (a v x : Word)
    (hx : ∀ i < n, maskAddr p x ≠ maskAddr p (a + BitVec.ofNat 32 i)) :
    readByte p (storeValue p m f3 a v) x = readByte p m x := by
  simp only [List.mem_cons, Prod.mk.injEq, List.not_mem_nil, or_false] at hn
  rcases hn with ⟨rfl, rfl⟩ | ⟨rfl, rfl⟩ | ⟨rfl, rfl⟩
  · have h0 := hx 0 (by decide)
    simp at h0
    simp [storeValue, readByte_writeByte, h0]
  · have h0 := hx 0 (by decide)
    have h1 := hx 1 (by decide)
    simp at h0 h1
    simp [storeValue, writeHalf, readByte_writeByte, h0, h1]
  · have h0 := hx 0 (by decide)
    have h1 := hx 1 (by decide)
    have h2 := hx 2 (by decide)
    have h3 := hx 3 (by decide)
    simp at h0 h1 h2 h3
    simp [storeValue, writeWord, readByte_writeByte, h0, h1, h2, h3]

/-- Every store keeps memory's canonical form. -/
@[simp] theorem storeValue_wf (p : Params) (m : Memory) (f3 : BitVec 3) (a v : Word)
    (h : Memory.wf p.memSize m = true) : Memory.wf p.memSize (storeValue p m f3 a v) = true := by
  unfold storeValue
  split
  · exact writeByte_wf p m a _ h
  · split
    · exact writeHalf_wf p m a _ h
    · split
      · exact writeWord_wf p m a v h
      · exact h

/-- The host's store to a memory-mapped byte keeps memory's canonical form. -/
theorem setMmio_wf (s : State) (k : Nat) (v : Byte) (h1 : 1 ≤ k) (h2 : k ≤ s.params.memSize)
    (h : Memory.wf s.params.memSize s.mem = true) :
    Memory.wf s.params.memSize (s.setMmio k v).mem = true :=
  sparseWf_set 0#8 _ _ _ v (by omega) h

/-- The bytes of an image lie at rising addresses from its first on, none of them listed as 0. -/
theorem mem_imageCells (a : Nat) (image : List Byte) (e : Nat × Byte) (h : e ∈ imageCells a image) :
    a ≤ e.1 ∧ e.1 < a + image.length ∧ e.2 ≠ 0#8 := by
  induction image generalizing a with
  | nil => simp [imageCells] at h
  | cons b bs ih =>
    unfold imageCells at h
    split at h
    · have := ih (a + 1) h
      simp only [List.length_cons]
      exact ⟨by omega, by omega, this.2.2⟩
    · next hb =>
      rcases List.mem_cons.mp h with rfl | h
      · simp [hb]
      · have := ih (a + 1) h
        simp only [List.length_cons]
        exact ⟨by omega, by omega, this.2.2⟩

/-- A loaded image is in canonical form (R501). -/
theorem imageCells_wf (size a : Nat) (image : List Byte) (h : a + image.length ≤ size) :
    Memory.wf size (imageCells a image) = true := by
  refine (sparseWf_iff 0#8 size _).mpr ⟨?_, fun e he => ?_⟩
  · induction image generalizing a with
    | nil => simp [imageCells]
    | cons b bs ih =>
      simp only [List.length_cons] at h
      unfold imageCells
      split
      · exact ih (a + 1) (by omega)
      · refine List.pairwise_cons.mpr ⟨fun e he => ?_, ih (a + 1) (by omega)⟩
        have := mem_imageCells (a + 1) bs e he
        show a < e.1
        omega
  · have := mem_imageCells a image e he
    exact ⟨by omega, this.2.2⟩

/-! ## The predictor's tables -/

theorem predBase_lt (p : Params) (a : Word) : predBase p a < p.predSize := Nat.mod_lt _ (memSize_pos p)

theorem predIndex_lt (p : Params) (hist : List (Nat × BitVec 8)) (a : Word) : predIndex p hist a < p.predSize :=
  Nat.mod_lt _ (memSize_pos p)

theorem updateCtr_wf (p : Params) (ctr : List (Nat × BitVec 2)) (hist : List (Nat × BitVec 8)) (a : Word)
    (taken : Bool) (h : sparseWf 0#2 p.predSize ctr = true) :
    sparseWf 0#2 p.predSize (updateCtr p ctr hist a taken) = true :=
  sparseWf_set 0#2 _ _ _ _ (predIndex_lt p hist a) h

theorem updateHist_wf (p : Params) (hist : List (Nat × BitVec 8)) (a : Word) (taken : Bool)
    (h : sparseWf 0#8 p.predSize hist = true) : sparseWf 0#8 p.predSize (updateHist p hist a taken) = true :=
  sparseWf_set 0#8 _ _ _ _ (predBase_lt p a) h

end Sys2Proof.Machine
end

