-- ==== Sys2Proof/Laws/State.lean ====
section
/-! SUPPORT. One lemma per field per update of the state, so that no later proof unfolds a record update. -/

namespace Sys2Proof.Machine

/-! ## setPc, restart, advance -/

@[simp] theorem State.setPc_regs (s : State) (pc : Word) : (s.setPc pc).regs = s.regs := rfl
@[simp] theorem State.setPc_written (s : State) (pc : Word) : (s.setPc pc).written = s.written := rfl
@[simp] theorem State.setPc_unwrittenRead (s : State) (pc : Word) : (s.setPc pc).unwrittenRead = s.unwrittenRead := rfl
@[simp] theorem State.setPc_pcF (s : State) (pc : Word) : (s.setPc pc).pcF = pc := rfl
@[simp] theorem State.setPc_npcF (s : State) (pc : Word) : (s.setPc pc).npcF = pc := rfl
@[simp] theorem State.setPc_ifid (s : State) (pc : Word) : (s.setPc pc).ifid = IfId.restart pc := rfl
@[simp] theorem State.setPc_idex (s : State) (pc : Word) : (s.setPc pc).idex = s.idex := rfl
@[simp] theorem State.setPc_exmem (s : State) (pc : Word) : (s.setPc pc).exmem = s.exmem := rfl
@[simp] theorem State.setPc_memwb (s : State) (pc : Word) : (s.setPc pc).memwb = s.memwb := rfl
@[simp] theorem State.setPc_ctr (s : State) (pc : Word) : (s.setPc pc).ctr = s.ctr := rfl
@[simp] theorem State.setPc_hist (s : State) (pc : Word) : (s.setPc pc).hist = s.hist := rfl
@[simp] theorem State.setPc_blockIrq (s : State) (pc : Word) : (s.setPc pc).blockIrq = s.blockIrq := rfl
@[simp] theorem State.setPc_irqCnt (s : State) (pc : Word) : (s.setPc pc).irqCnt = s.irqCnt := rfl
@[simp] theorem State.setPc_irqActive (s : State) (pc : Word) : (s.setPc pc).irqActive = s.irqActive := rfl
@[simp] theorem State.setPc_retAddr (s : State) (pc : Word) : (s.setPc pc).retAddr = s.retAddr := rfl
@[simp] theorem State.setPc_mem (s : State) (pc : Word) : (s.setPc pc).mem = s.mem := rfl
@[simp] theorem State.setPc_uartOut (s : State) (pc : Word) : (s.setPc pc).uartOut = s.uartOut := rfl
@[simp] theorem State.setPc_params (s : State) (pc : Word) : (s.setPc pc).params = s.params := rfl
@[simp] theorem State.setPc_inbox (s : State) (pc : Word) : (s.setPc pc).inbox = s.inbox := rfl
@[simp] theorem State.setPc_pace (s : State) (pc : Word) : (s.setPc pc).pace = s.pace := rfl

@[simp] theorem State.restart_regs (s : State) (pc : Word) : (s.restart pc).regs = s.regs := rfl
@[simp] theorem State.restart_written (s : State) (pc : Word) : (s.restart pc).written = s.written := rfl
@[simp] theorem State.restart_unwrittenRead (s : State) (pc : Word) : (s.restart pc).unwrittenRead = s.unwrittenRead := rfl
@[simp] theorem State.restart_pcF (s : State) (pc : Word) : (s.restart pc).pcF = pc := rfl
@[simp] theorem State.restart_npcF (s : State) (pc : Word) : (s.restart pc).npcF = pc := rfl
@[simp] theorem State.restart_ifid (s : State) (pc : Word) : (s.restart pc).ifid = IfId.restart pc := rfl
@[simp] theorem State.restart_idex (s : State) (pc : Word) : (s.restart pc).idex = IdEx.empty := rfl
@[simp] theorem State.restart_exmem (s : State) (pc : Word) : (s.restart pc).exmem = ExMem.empty := rfl
@[simp] theorem State.restart_memwb (s : State) (pc : Word) : (s.restart pc).memwb = MemWb.empty := rfl
@[simp] theorem State.restart_ctr (s : State) (pc : Word) : (s.restart pc).ctr = s.ctr := rfl
@[simp] theorem State.restart_hist (s : State) (pc : Word) : (s.restart pc).hist = s.hist := rfl
@[simp] theorem State.restart_blockIrq (s : State) (pc : Word) : (s.restart pc).blockIrq = s.blockIrq := rfl
@[simp] theorem State.restart_irqCnt (s : State) (pc : Word) : (s.restart pc).irqCnt = s.irqCnt := rfl
@[simp] theorem State.restart_irqActive (s : State) (pc : Word) : (s.restart pc).irqActive = s.irqActive := rfl
@[simp] theorem State.restart_retAddr (s : State) (pc : Word) : (s.restart pc).retAddr = s.retAddr := rfl
@[simp] theorem State.restart_mem (s : State) (pc : Word) : (s.restart pc).mem = s.mem := rfl
@[simp] theorem State.restart_uartOut (s : State) (pc : Word) : (s.restart pc).uartOut = s.uartOut := rfl
@[simp] theorem State.restart_params (s : State) (pc : Word) : (s.restart pc).params = s.params := rfl
@[simp] theorem State.restart_inbox (s : State) (pc : Word) : (s.restart pc).inbox = s.inbox := rfl
@[simp] theorem State.restart_pace (s : State) (pc : Word) : (s.restart pc).pace = s.pace := rfl

@[simp] theorem State.advance_regs (s : State) : (s.advance).regs = s.regs := rfl
@[simp] theorem State.advance_written (s : State) : (s.advance).written = s.written := rfl
@[simp] theorem State.advance_unwrittenRead (s : State) : (s.advance).unwrittenRead = s.unwrittenRead := rfl
@[simp] theorem State.advance_pcF (s : State) : (s.advance).pcF = s.pcF + 4#32 := rfl
@[simp] theorem State.advance_npcF (s : State) : (s.advance).npcF = s.pcF + 4#32 := rfl
@[simp] theorem State.advance_ifid (s : State) : (s.advance).ifid = IfId.restart (s.pcF + 4#32) := rfl
@[simp] theorem State.advance_idex (s : State) : (s.advance).idex = s.idex := rfl
@[simp] theorem State.advance_exmem (s : State) : (s.advance).exmem = s.exmem := rfl
@[simp] theorem State.advance_memwb (s : State) : (s.advance).memwb = s.memwb := rfl
@[simp] theorem State.advance_ctr (s : State) : (s.advance).ctr = s.ctr := rfl
@[simp] theorem State.advance_hist (s : State) : (s.advance).hist = s.hist := rfl
@[simp] theorem State.advance_blockIrq (s : State) : (s.advance).blockIrq = s.blockIrq := rfl
@[simp] theorem State.advance_irqCnt (s : State) : (s.advance).irqCnt = s.irqCnt := rfl
@[simp] theorem State.advance_irqActive (s : State) : (s.advance).irqActive = s.irqActive := rfl
@[simp] theorem State.advance_retAddr (s : State) : (s.advance).retAddr = s.retAddr := rfl
@[simp] theorem State.advance_mem (s : State) : (s.advance).mem = s.mem := rfl
@[simp] theorem State.advance_uartOut (s : State) : (s.advance).uartOut = s.uartOut := rfl
@[simp] theorem State.advance_params (s : State) : (s.advance).params = s.params := rfl
@[simp] theorem State.advance_inbox (s : State) : (s.advance).inbox = s.inbox := rfl
@[simp] theorem State.advance_pace (s : State) : (s.advance).pace = s.pace := rfl

/-! ## writeReg, noteRead -/

@[simp] theorem State.writeReg_unwrittenRead (s : State) (r : Reg) (v : Word) : (s.writeReg r v).unwrittenRead = s.unwrittenRead := by
  unfold State.writeReg; split <;> rfl
@[simp] theorem State.writeReg_pcF (s : State) (r : Reg) (v : Word) : (s.writeReg r v).pcF = s.pcF := by
  unfold State.writeReg; split <;> rfl
@[simp] theorem State.writeReg_npcF (s : State) (r : Reg) (v : Word) : (s.writeReg r v).npcF = s.npcF := by
  unfold State.writeReg; split <;> rfl
@[simp] theorem State.writeReg_ifid (s : State) (r : Reg) (v : Word) : (s.writeReg r v).ifid = s.ifid := by
  unfold State.writeReg; split <;> rfl
@[simp] theorem State.writeReg_idex (s : State) (r : Reg) (v : Word) : (s.writeReg r v).idex = s.idex := by
  unfold State.writeReg; split <;> rfl
@[simp] theorem State.writeReg_exmem (s : State) (r : Reg) (v : Word) : (s.writeReg r v).exmem = s.exmem := by
  unfold State.writeReg; split <;> rfl
@[simp] theorem State.writeReg_memwb (s : State) (r : Reg) (v : Word) : (s.writeReg r v).memwb = s.memwb := by
  unfold State.writeReg; split <;> rfl
@[simp] theorem State.writeReg_ctr (s : State) (r : Reg) (v : Word) : (s.writeReg r v).ctr = s.ctr := by
  unfold State.writeReg; split <;> rfl
@[simp] theorem State.writeReg_hist (s : State) (r : Reg) (v : Word) : (s.writeReg r v).hist = s.hist := by
  unfold State.writeReg; split <;> rfl
@[simp] theorem State.writeReg_blockIrq (s : State) (r : Reg) (v : Word) : (s.writeReg r v).blockIrq = s.blockIrq := by
  unfold State.writeReg; split <;> rfl
@[simp] theorem State.writeReg_irqCnt (s : State) (r : Reg) (v : Word) : (s.writeReg r v).irqCnt = s.irqCnt := by
  unfold State.writeReg; split <;> rfl
@[simp] theorem State.writeReg_irqActive (s : State) (r : Reg) (v : Word) : (s.writeReg r v).irqActive = s.irqActive := by
  unfold State.writeReg; split <;> rfl
@[simp] theorem State.writeReg_retAddr (s : State) (r : Reg) (v : Word) : (s.writeReg r v).retAddr = s.retAddr := by
  unfold State.writeReg; split <;> rfl
@[simp] theorem State.writeReg_mem (s : State) (r : Reg) (v : Word) : (s.writeReg r v).mem = s.mem := by
  unfold State.writeReg; split <;> rfl
@[simp] theorem State.writeReg_uartOut (s : State) (r : Reg) (v : Word) : (s.writeReg r v).uartOut = s.uartOut := by
  unfold State.writeReg; split <;> rfl
@[simp] theorem State.writeReg_params (s : State) (r : Reg) (v : Word) : (s.writeReg r v).params = s.params := by
  unfold State.writeReg; split <;> rfl
@[simp] theorem State.writeReg_inbox (s : State) (r : Reg) (v : Word) : (s.writeReg r v).inbox = s.inbox := by
  unfold State.writeReg; split <;> rfl
@[simp] theorem State.writeReg_pace (s : State) (r : Reg) (v : Word) : (s.writeReg r v).pace = s.pace := by
  unfold State.writeReg; split <;> rfl

@[simp] theorem State.noteRead_regs (s : State) (r : Reg) : (s.noteRead r).regs = s.regs := rfl
@[simp] theorem State.noteRead_written (s : State) (r : Reg) : (s.noteRead r).written = s.written := rfl
@[simp] theorem State.noteRead_unwrittenRead (s : State) (r : Reg) : (s.noteRead r).unwrittenRead = (s.unwrittenRead || s.unwritten r) := rfl
@[simp] theorem State.noteRead_pcF (s : State) (r : Reg) : (s.noteRead r).pcF = s.pcF := rfl
@[simp] theorem State.noteRead_npcF (s : State) (r : Reg) : (s.noteRead r).npcF = s.npcF := rfl
@[simp] theorem State.noteRead_ifid (s : State) (r : Reg) : (s.noteRead r).ifid = s.ifid := rfl
@[simp] theorem State.noteRead_idex (s : State) (r : Reg) : (s.noteRead r).idex = s.idex := rfl
@[simp] theorem State.noteRead_exmem (s : State) (r : Reg) : (s.noteRead r).exmem = s.exmem := rfl
@[simp] theorem State.noteRead_memwb (s : State) (r : Reg) : (s.noteRead r).memwb = s.memwb := rfl
@[simp] theorem State.noteRead_ctr (s : State) (r : Reg) : (s.noteRead r).ctr = s.ctr := rfl
@[simp] theorem State.noteRead_hist (s : State) (r : Reg) : (s.noteRead r).hist = s.hist := rfl
@[simp] theorem State.noteRead_blockIrq (s : State) (r : Reg) : (s.noteRead r).blockIrq = s.blockIrq := rfl
@[simp] theorem State.noteRead_irqCnt (s : State) (r : Reg) : (s.noteRead r).irqCnt = s.irqCnt := rfl
@[simp] theorem State.noteRead_irqActive (s : State) (r : Reg) : (s.noteRead r).irqActive = s.irqActive := rfl
@[simp] theorem State.noteRead_retAddr (s : State) (r : Reg) : (s.noteRead r).retAddr = s.retAddr := rfl
@[simp] theorem State.noteRead_mem (s : State) (r : Reg) : (s.noteRead r).mem = s.mem := rfl
@[simp] theorem State.noteRead_uartOut (s : State) (r : Reg) : (s.noteRead r).uartOut = s.uartOut := rfl
@[simp] theorem State.noteRead_params (s : State) (r : Reg) : (s.noteRead r).params = s.params := rfl
@[simp] theorem State.noteRead_inbox (s : State) (r : Reg) : (s.noteRead r).inbox = s.inbox := rfl
@[simp] theorem State.noteRead_pace (s : State) (r : Reg) : (s.noteRead r).pace = s.pace := rfl

/-! ## updatePredictor, setMmio, takeInterrupt -/

@[simp] theorem State.updatePredictor_regs (s : State) (pc : Word) (taken : Bool) : (s.updatePredictor pc taken).regs = s.regs := rfl
@[simp] theorem State.updatePredictor_written (s : State) (pc : Word) (taken : Bool) : (s.updatePredictor pc taken).written = s.written := rfl
@[simp] theorem State.updatePredictor_unwrittenRead (s : State) (pc : Word) (taken : Bool) : (s.updatePredictor pc taken).unwrittenRead = s.unwrittenRead := rfl
@[simp] theorem State.updatePredictor_pcF (s : State) (pc : Word) (taken : Bool) : (s.updatePredictor pc taken).pcF = s.pcF := rfl
@[simp] theorem State.updatePredictor_npcF (s : State) (pc : Word) (taken : Bool) : (s.updatePredictor pc taken).npcF = s.npcF := rfl
@[simp] theorem State.updatePredictor_ifid (s : State) (pc : Word) (taken : Bool) : (s.updatePredictor pc taken).ifid = s.ifid := rfl
@[simp] theorem State.updatePredictor_idex (s : State) (pc : Word) (taken : Bool) : (s.updatePredictor pc taken).idex = s.idex := rfl
@[simp] theorem State.updatePredictor_exmem (s : State) (pc : Word) (taken : Bool) : (s.updatePredictor pc taken).exmem = s.exmem := rfl
@[simp] theorem State.updatePredictor_memwb (s : State) (pc : Word) (taken : Bool) : (s.updatePredictor pc taken).memwb = s.memwb := rfl
@[simp] theorem State.updatePredictor_ctr (s : State) (pc : Word) (taken : Bool) : (s.updatePredictor pc taken).ctr = updateCtr s.params s.ctr s.hist pc taken := rfl
@[simp] theorem State.updatePredictor_hist (s : State) (pc : Word) (taken : Bool) : (s.updatePredictor pc taken).hist = updateHist s.params s.hist pc taken := rfl
@[simp] theorem State.updatePredictor_blockIrq (s : State) (pc : Word) (taken : Bool) : (s.updatePredictor pc taken).blockIrq = s.blockIrq := rfl
@[simp] theorem State.updatePredictor_irqCnt (s : State) (pc : Word) (taken : Bool) : (s.updatePredictor pc taken).irqCnt = s.irqCnt := rfl
@[simp] theorem State.updatePredictor_irqActive (s : State) (pc : Word) (taken : Bool) : (s.updatePredictor pc taken).irqActive = s.irqActive := rfl
@[simp] theorem State.updatePredictor_retAddr (s : State) (pc : Word) (taken : Bool) : (s.updatePredictor pc taken).retAddr = s.retAddr := rfl
@[simp] theorem State.updatePredictor_mem (s : State) (pc : Word) (taken : Bool) : (s.updatePredictor pc taken).mem = s.mem := rfl
@[simp] theorem State.updatePredictor_uartOut (s : State) (pc : Word) (taken : Bool) : (s.updatePredictor pc taken).uartOut = s.uartOut := rfl
@[simp] theorem State.updatePredictor_params (s : State) (pc : Word) (taken : Bool) : (s.updatePredictor pc taken).params = s.params := rfl
@[simp] theorem State.updatePredictor_inbox (s : State) (pc : Word) (taken : Bool) : (s.updatePredictor pc taken).inbox = s.inbox := rfl
@[simp] theorem State.updatePredictor_pace (s : State) (pc : Word) (taken : Bool) : (s.updatePredictor pc taken).pace = s.pace := rfl

@[simp] theorem State.setMmio_regs (s : State) (k : Nat) (v : Byte) : (s.setMmio k v).regs = s.regs := rfl
@[simp] theorem State.setMmio_written (s : State) (k : Nat) (v : Byte) : (s.setMmio k v).written = s.written := rfl
@[simp] theorem State.setMmio_unwrittenRead (s : State) (k : Nat) (v : Byte) : (s.setMmio k v).unwrittenRead = s.unwrittenRead := rfl
@[simp] theorem State.setMmio_pcF (s : State) (k : Nat) (v : Byte) : (s.setMmio k v).pcF = s.pcF := rfl
@[simp] theorem State.setMmio_npcF (s : State) (k : Nat) (v : Byte) : (s.setMmio k v).npcF = s.npcF := rfl
@[simp] theorem State.setMmio_ifid (s : State) (k : Nat) (v : Byte) : (s.setMmio k v).ifid = s.ifid := rfl
@[simp] theorem State.setMmio_idex (s : State) (k : Nat) (v : Byte) : (s.setMmio k v).idex = s.idex := rfl
@[simp] theorem State.setMmio_exmem (s : State) (k : Nat) (v : Byte) : (s.setMmio k v).exmem = s.exmem := rfl
@[simp] theorem State.setMmio_memwb (s : State) (k : Nat) (v : Byte) : (s.setMmio k v).memwb = s.memwb := rfl
@[simp] theorem State.setMmio_ctr (s : State) (k : Nat) (v : Byte) : (s.setMmio k v).ctr = s.ctr := rfl
@[simp] theorem State.setMmio_hist (s : State) (k : Nat) (v : Byte) : (s.setMmio k v).hist = s.hist := rfl
@[simp] theorem State.setMmio_blockIrq (s : State) (k : Nat) (v : Byte) : (s.setMmio k v).blockIrq = s.blockIrq := rfl
@[simp] theorem State.setMmio_irqCnt (s : State) (k : Nat) (v : Byte) : (s.setMmio k v).irqCnt = s.irqCnt := rfl
@[simp] theorem State.setMmio_irqActive (s : State) (k : Nat) (v : Byte) : (s.setMmio k v).irqActive = s.irqActive := rfl
@[simp] theorem State.setMmio_retAddr (s : State) (k : Nat) (v : Byte) : (s.setMmio k v).retAddr = s.retAddr := rfl
@[simp] theorem State.setMmio_mem (s : State) (k : Nat) (v : Byte) : (s.setMmio k v).mem = sparseSet 0#8 s.mem (s.params.memSize - k) v := rfl
@[simp] theorem State.setMmio_uartOut (s : State) (k : Nat) (v : Byte) : (s.setMmio k v).uartOut = s.uartOut := rfl
@[simp] theorem State.setMmio_params (s : State) (k : Nat) (v : Byte) : (s.setMmio k v).params = s.params := rfl
@[simp] theorem State.setMmio_inbox (s : State) (k : Nat) (v : Byte) : (s.setMmio k v).inbox = s.inbox := rfl
@[simp] theorem State.setMmio_pace (s : State) (k : Nat) (v : Byte) : (s.setMmio k v).pace = s.pace := rfl

@[simp] theorem State.takeInterrupt_regs (s : State) : (s.takeInterrupt).regs = (s.writeReg s.params.irqLink s.retAddr).regs := by
  simp [State.takeInterrupt]
@[simp] theorem State.takeInterrupt_written (s : State) : (s.takeInterrupt).written = (s.writeReg s.params.irqLink s.retAddr).written := by
  simp [State.takeInterrupt]
@[simp] theorem State.takeInterrupt_unwrittenRead (s : State) : (s.takeInterrupt).unwrittenRead = s.unwrittenRead := by
  simp [State.takeInterrupt]
@[simp] theorem State.takeInterrupt_pcF (s : State) : (s.takeInterrupt).pcF = s.params.irqHandler := by
  simp [State.takeInterrupt]
@[simp] theorem State.takeInterrupt_npcF (s : State) : (s.takeInterrupt).npcF = s.params.irqHandler := by
  simp [State.takeInterrupt]
@[simp] theorem State.takeInterrupt_ifid (s : State) : (s.takeInterrupt).ifid = IfId.restart s.params.irqHandler := by
  simp [State.takeInterrupt]
@[simp] theorem State.takeInterrupt_idex (s : State) : (s.takeInterrupt).idex = s.idex := by
  simp [State.takeInterrupt]
@[simp] theorem State.takeInterrupt_exmem (s : State) : (s.takeInterrupt).exmem = s.exmem := by
  simp [State.takeInterrupt]
@[simp] theorem State.takeInterrupt_memwb (s : State) : (s.takeInterrupt).memwb = s.memwb := by
  simp [State.takeInterrupt]
@[simp] theorem State.takeInterrupt_ctr (s : State) : (s.takeInterrupt).ctr = s.ctr := by
  simp [State.takeInterrupt]
@[simp] theorem State.takeInterrupt_hist (s : State) : (s.takeInterrupt).hist = s.hist := by
  simp [State.takeInterrupt]
@[simp] theorem State.takeInterrupt_blockIrq (s : State) : (s.takeInterrupt).blockIrq = s.blockIrq := by
  simp [State.takeInterrupt]
@[simp] theorem State.takeInterrupt_irqCnt (s : State) : (s.takeInterrupt).irqCnt = 0 := by
  simp [State.takeInterrupt]
@[simp] theorem State.takeInterrupt_irqActive (s : State) : (s.takeInterrupt).irqActive = false := by
  simp [State.takeInterrupt]
@[simp] theorem State.takeInterrupt_retAddr (s : State) : (s.takeInterrupt).retAddr = s.retAddr := by
  simp [State.takeInterrupt]
@[simp] theorem State.takeInterrupt_mem (s : State) : (s.takeInterrupt).mem = s.mem := by
  simp [State.takeInterrupt]
@[simp] theorem State.takeInterrupt_uartOut (s : State) : (s.takeInterrupt).uartOut = s.uartOut := by
  simp [State.takeInterrupt]
@[simp] theorem State.takeInterrupt_params (s : State) : (s.takeInterrupt).params = s.params := by
  simp [State.takeInterrupt]
@[simp] theorem State.takeInterrupt_inbox (s : State) : (s.takeInterrupt).inbox = s.inbox := by
  simp [State.takeInterrupt]
@[simp] theorem State.takeInterrupt_pace (s : State) : (s.takeInterrupt).pace = s.pace := by
  simp [State.takeInterrupt]

/-! ## Registers read through an update that leaves the register file alone -/

@[simp] theorem State.setPc_readReg (s : State) (pc : Word) (r : Reg) : (s.setPc pc).readReg r = s.readReg r := rfl
@[simp] theorem State.setPc_unwritten (s : State) (pc : Word) (r : Reg) : (s.setPc pc).unwritten r = s.unwritten r := rfl
@[simp] theorem State.restart_readReg (s : State) (pc : Word) (r : Reg) : (s.restart pc).readReg r = s.readReg r := rfl
@[simp] theorem State.restart_unwritten (s : State) (pc : Word) (r : Reg) : (s.restart pc).unwritten r = s.unwritten r := rfl
@[simp] theorem State.advance_readReg (s : State) (r : Reg) : (s.advance).readReg r = s.readReg r := rfl
@[simp] theorem State.advance_unwritten (s : State) (r : Reg) : (s.advance).unwritten r = s.unwritten r := rfl
@[simp] theorem State.noteRead_readReg (s : State) (q : Reg) (r : Reg) : (s.noteRead q).readReg r = s.readReg r := rfl
@[simp] theorem State.noteRead_unwritten (s : State) (q : Reg) (r : Reg) : (s.noteRead q).unwritten r = s.unwritten r := rfl
@[simp] theorem State.updatePredictor_readReg (s : State) (pc : Word) (taken : Bool) (r : Reg) : (s.updatePredictor pc taken).readReg r = s.readReg r := rfl
@[simp] theorem State.updatePredictor_unwritten (s : State) (pc : Word) (taken : Bool) (r : Reg) : (s.updatePredictor pc taken).unwritten r = s.unwritten r := rfl
@[simp] theorem State.setMmio_readReg (s : State) (k : Nat) (v : Byte) (r : Reg) : (s.setMmio k v).readReg r = s.readReg r := rfl
@[simp] theorem State.setMmio_unwritten (s : State) (k : Nat) (v : Byte) (r : Reg) : (s.setMmio k v).unwritten r = s.unwritten r := rfl

end Sys2Proof.Machine
end

