-- ==== Sys2Proof/Laws/Registers.lean ====
section
/-! SUPPORT. The register file: what a read sees after a write (10_state.md R31), and which registers count as
written (R35). -/

namespace Sys2Proof.Machine

/-- x0 reads 0 (R31). -/
@[simp] theorem State.readReg_zero (s : State) : s.readReg 0#5 = 0#32 := rfl

/-- x0 is never an unwritten register (R35). -/
@[simp] theorem State.unwritten_zero (s : State) : s.unwritten 0#5 = false := rfl

/-- A write to x0 is not observed (R31). -/
@[simp] theorem State.writeReg_zero (s : State) (v : Word) : s.writeReg 0#5 v = s := rfl

/-- One register read after one register written. -/
theorem State.readReg_writeReg (s : State) (rd r : Reg) (v : Word) :
    (s.writeReg rd v).readReg r = if r = 0#5 then 0#32 else if r = rd then v else s.readReg r := by
  unfold State.writeReg State.readReg
  by_cases hr : r = 0#5
  · simp [hr]
  · by_cases hd : rd = 0#5
    · have : r ≠ rd := fun e => hr (e.trans hd)
      simp [hr, hd]
    · by_cases he : r = rd
      · subst he
        simp [hr]
      · have hne : rd.toNat ≠ r.toNat := fun e => he (BitVec.eq_of_toNat_eq e).symm
        simp [hr, hd, he, Vector.getElem_set_ne _ _ hne]

/-- Which registers are unwritten after one register is written. -/
theorem State.unwritten_writeReg (s : State) (rd r : Reg) (v : Word) :
    (s.writeReg rd v).unwritten r = (s.unwritten r && decide (r ≠ rd)) := by
  unfold State.writeReg State.unwritten
  by_cases hr : r = 0#5
  · simp [hr]
  · by_cases hd : rd = 0#5
    · have : r ≠ rd := fun e => hr (e.trans hd)
      simp [hd, hr]
    · by_cases he : r = rd
      · subst he
        simp [hr]
      · have hne : rd.toNat ≠ r.toNat := fun e => he (BitVec.eq_of_toNat_eq e).symm
        simp [hr, hd, he, Vector.getElem_set_ne _ _ hne]

end Sys2Proof.Machine
end

