-- ==== Sys2Proof/Laws/Forms.lean ====
section
/-! SUPPORT. What each shape the instructions share can do (Machine/Forms.lean): one lemma for its effect, one for
the report of unwritten reads and for the fetch registers it leaves. -/

namespace Sys2Proof.Machine

/-- An R-type operation writes its result and nothing else. -/
theorem State.opRegister_spec (s : State) (f : Word → Word → Word) (rd rs1 rs2 : Reg) :
    WritesOnly s rd (f (s.readReg rs1) (s.readReg rs2)) (s.pcF + 4#32) (s.opRegister f rd rs1 rs2) where
  reg := by
    constructor <;> intro r <;> simp [State.opRegister, State.readReg_writeReg, State.unwritten_writeReg]
  pc := by simp [State.opRegister]
  memory := fun a => by simp [State.opRegister]
  predictor := by simp [PredictorKept, State.opRegister]
  control := by constructor <;> simp [State.opRegister]

/-- An I-type operation writes its result and nothing else. -/
theorem State.opImmediate_spec (s : State) (f : Word → Word → Word) (rd rs1 : Reg) (imm : Word) :
    WritesOnly s rd (f (s.readReg rs1) imm) (s.pcF + 4#32) (s.opImmediate f rd rs1 imm) where
  reg := by
    constructor <;> intro r <;> simp [State.opImmediate, State.readReg_writeReg, State.unwritten_writeReg]
  pc := by simp [State.opImmediate]
  memory := fun a => by simp [State.opImmediate]
  predictor := by simp [PredictorKept, State.opImmediate]
  control := by constructor <;> simp [State.opImmediate]

/-- A U-type operation writes its result and nothing else. -/
theorem State.opUpper_spec (s : State) (rd : Reg) (v : Word) :
    WritesOnly s rd v (s.pcF + 4#32) (s.opUpper rd v) where
  reg := by
    constructor <;> intro r <;> simp [State.opUpper, State.readReg_writeReg, State.unwritten_writeReg]
  pc := by simp [State.opUpper]
  memory := fun a => by simp [State.opUpper]
  predictor := by simp [PredictorKept, State.opUpper]
  control := by constructor <;> simp [State.opUpper]

/-- A jump writes the link and goes to its target; nothing else changes. -/
theorem State.opJump_spec (s : State) (rd : Reg) (target : Word) :
    WritesOnly s rd (s.pcF + 4#32) target (s.opJump rd target) where
  reg := by
    constructor <;> intro r <;> simp [State.opJump, State.readReg_writeReg, State.unwritten_writeReg]
  pc := by simp [State.opJump]
  memory := fun a => by simp [State.opJump]
  predictor := by simp [PredictorKept, State.opJump]
  control := by constructor <;> simp [State.opJump]

/-- A branch chooses the next PC and records the outcome; nothing else changes. -/
theorem State.opBranch_spec (s : State) (cond : Word → Word → Bool) (rs1 rs2 : Reg) (off : BitVec 13) :
    BranchesOnly s (cond (s.readReg rs1) (s.readReg rs2))
      (branchTarget (cond (s.readReg rs1) (s.readReg rs2)) s.pcF (sext13 off)) (s.opBranch cond rs1 rs2 off) where
  pc := by simp [State.opBranch]
  regs := by constructor <;> intro r <;> simp [State.opBranch]
  memory := fun a => by simp [State.opBranch]
  ctr := by simp [State.opBranch]
  hist := by simp [State.opBranch]
  control := by constructor <;> simp [State.opBranch]

/-- A load writes the loaded value and nothing else. -/
theorem State.opLoad_spec (s : State) (f3 : BitVec 3) (rd rs1 : Reg) (imm : BitVec 12) :
    WritesOnly s rd (loadValue s.params s.mem f3 (effAddr (s.readReg rs1) imm)) (s.pcF + 4#32) (s.opLoad f3 rd rs1 imm) where
  reg := by
    constructor <;> intro r <;> simp [State.opLoad, State.readReg_writeReg, State.unwritten_writeReg]
  pc := by simp [State.opLoad]
  memory := fun a => by simp [State.opLoad]
  predictor := by simp [PredictorKept, State.opLoad]
  control := by constructor <;> simp [State.opLoad]

/-- A store writes memory as its funct3 says, and changes nothing else but the PC. -/
theorem State.opStore_spec (s : State) (f3 : BitVec 3) (rs2 rs1 : Reg) (imm : BitVec 12) :
    let t := s.opStore f3 rs2 rs1 imm
    t.mem = storeValue s.params s.mem f3 (effAddr (s.readReg rs1) imm) (s.readReg rs2) ∧ t.pcF = s.pcF + 4#32
      ∧ RegsKept s t ∧ PredictorKept s t ∧ ControlKept s t := by
  refine ⟨by simp [State.opStore], by simp [State.opStore], ⟨fun _ => rfl, fun _ => rfl⟩,
    by simp [PredictorKept, State.opStore], ?_⟩
  constructor <;> simp [State.opStore]

/-- A NOP advances the PC and does nothing else. -/
theorem State.opNop_spec (s : State) : AdvancesOnly s s.opNop where
  pc := rfl
  regs := ⟨fun _ => rfl, fun _ => rfl⟩
  memory := fun _ => rfl
  predictor := ⟨rfl, rfl⟩
  control := by constructor <;> rfl

/-! ## The report of unwritten reads -/

theorem State.opRegister_reports (s : State) (f : Word → Word → Word) (rd rs1 rs2 : Reg) :
    Reports s (s.opRegister f rd rs1 rs2) [rs1, rs2] := by
  simp [Reports, State.opRegister, Bool.or_assoc]

theorem State.opImmediate_reports (s : State) (f : Word → Word → Word) (rd rs1 : Reg) (imm : Word) :
    Reports s (s.opImmediate f rd rs1 imm) [rs1] := by
  simp [Reports, State.opImmediate]

theorem State.opUpper_reports (s : State) (rd : Reg) (v : Word) :
    Reports s (s.opUpper rd v) [] := by
  simp [Reports, State.opUpper]

theorem State.opJump_reports (s : State) (rd : Reg) (target : Word) :
    Reports s (s.opJump rd target) [] := by
  simp [Reports, State.opJump]

theorem State.opBranch_reports (s : State) (cond : Word → Word → Bool) (rs1 rs2 : Reg) (off : BitVec 13) :
    Reports s (s.opBranch cond rs1 rs2 off) [rs1, rs2] := by
  simp [Reports, State.opBranch, Bool.or_assoc]

theorem State.opLoad_reports (s : State) (f3 : BitVec 3) (rd rs1 : Reg) (imm : BitVec 12) :
    Reports s (s.opLoad f3 rd rs1 imm) [rs1] := by
  simp [Reports, State.opLoad]

theorem State.opStore_reports (s : State) (f3 : BitVec 3) (rs2 rs1 : Reg) (imm : BitVec 12) :
    Reports s (s.opStore f3 rs2 rs1 imm) [rs1, rs2] := by
  simp [Reports, State.opStore, Bool.or_assoc]

theorem State.opNop_reports (s : State) :
    Reports s (s.opNop) [] := by
  simp [Reports, State.opNop]

/-! ## The interrupt entry -/

/-- The interrupt entry saves the return address in the link register and goes to the handler; memory and the
predictor are kept (60_exceptions.md R417). -/
theorem State.takeInterrupt_spec (s : State) :
    WritesReg s s.takeInterrupt s.params.irqLink s.retAddr ∧ s.takeInterrupt.pcF = s.params.irqHandler
      ∧ MemoryKept s s.takeInterrupt ∧ PredictorKept s s.takeInterrupt := by
  refine ⟨⟨fun r => ?_, fun r => ?_⟩, by simp, fun a => by simp, by simp [PredictorKept]⟩
  · exact (s.readReg_writeReg s.params.irqLink r s.retAddr)
  · exact (s.unwritten_writeReg s.params.irqLink r s.retAddr)

end Sys2Proof.Machine
end

