-- ==== Sys2Proof/Laws/PerInstr.lean ====
section
/-! SUPPORT. One lemma per instruction: the word of a well-formed instruction has the fixed bits of its row of
opcode_table.json. -/

namespace Sys2Proof.Laws

open Sys2Proof

/-! ## What a row's mask leaves of a word of each layout -/

/-- funct7, funct3 and the opcode select. -/
theorem wordR_and_register (f7 : BitVec 7) (rs2 rs1 : Reg) (f3 : BitVec 3) (rd : Reg) (op : BitVec 7) :
    wordR f7 rs2 rs1 f3 rd op &&& 0xFE00707F#32 = wordR f7 0#5 0#5 f3 0#5 op := by
  rw [show (0xFE00707F#32 : Word) = wordR (BitVec.allOnes 7) 0#5 0#5 (BitVec.allOnes 3) 0#5 (BitVec.allOnes 7) by decide]
  apply BitVec.eq_of_getLsbD_eq
  intro i hi
  simp only [wordR, BitVec.getLsbD_and, BitVec.getLsbD_append, BitVec.getLsbD_allOnes,
    BitVec.getLsbD_zero]
  grind

/-- As above, and rd. -/
theorem wordR_and_noRd (f7 : BitVec 7) (rs2 rs1 : Reg) (f3 : BitVec 3) (rd : Reg) (op : BitVec 7) :
    wordR f7 rs2 rs1 f3 rd op &&& 0xFE007FFF#32 = wordR f7 0#5 0#5 f3 rd op := by
  rw [show (0xFE007FFF#32 : Word) = wordR (BitVec.allOnes 7) 0#5 0#5 (BitVec.allOnes 3) (BitVec.allOnes 5) (BitVec.allOnes 7) by decide]
  apply BitVec.eq_of_getLsbD_eq
  intro i hi
  simp only [wordR, BitVec.getLsbD_and, BitVec.getLsbD_append, BitVec.getLsbD_allOnes,
    BitVec.getLsbD_zero]
  grind

/-- funct5, rs2, funct3 and the opcode select. -/
theorem wordR_and_reserved (f5 : BitVec 5) (aqrl : BitVec 2) (rs2 rs1 : Reg) (f3 : BitVec 3) (rd : Reg) (op : BitVec 7) :
    wordR (f5 ++ aqrl) rs2 rs1 f3 rd op &&& 0xF9F0707F#32 = wordR (f5 ++ 0#2) rs2 0#5 f3 0#5 op := by
  rw [show (0xF9F0707F#32 : Word) = wordR ((BitVec.allOnes 5) ++ 0#2) (BitVec.allOnes 5) 0#5 (BitVec.allOnes 3) 0#5 (BitVec.allOnes 7) by decide]
  apply BitVec.eq_of_getLsbD_eq
  intro i hi
  simp only [wordR, BitVec.getLsbD_and, BitVec.getLsbD_append, BitVec.getLsbD_allOnes, BitVec.getLsbD_zero]
  grind

/-- funct5, funct3 and the opcode select. -/
theorem wordR_and_funct5 (f5 : BitVec 5) (aqrl : BitVec 2) (rs2 rs1 : Reg) (f3 : BitVec 3) (rd : Reg) (op : BitVec 7) :
    wordR (f5 ++ aqrl) rs2 rs1 f3 rd op &&& 0xF800707F#32 = wordR (f5 ++ 0#2) 0#5 0#5 f3 0#5 op := by
  rw [show (0xF800707F#32 : Word) = wordR ((BitVec.allOnes 5) ++ 0#2) 0#5 0#5 (BitVec.allOnes 3) 0#5 (BitVec.allOnes 7) by decide]
  apply BitVec.eq_of_getLsbD_eq
  intro i hi
  simp only [wordR, BitVec.getLsbD_and, BitVec.getLsbD_append, BitVec.getLsbD_allOnes, BitVec.getLsbD_zero]
  grind

/-- funct3 and the opcode select. -/
theorem wordI_and_funct3 (imm : BitVec 12) (rs1 : Reg) (f3 : BitVec 3) (rd : Reg) (op : BitVec 7) :
    wordI imm rs1 f3 rd op &&& 0x0000707F#32 = wordI 0#12 0#5 f3 0#5 op := by
  rw [show (0x0000707F#32 : Word) = wordI 0#12 0#5 (BitVec.allOnes 3) 0#5 (BitVec.allOnes 7) by decide]
  apply BitVec.eq_of_getLsbD_eq
  intro i hi
  simp only [wordI, BitVec.getLsbD_and, BitVec.getLsbD_append, BitVec.getLsbD_allOnes,
    BitVec.getLsbD_zero]
  grind

/-- The opcode selects. -/
theorem wordI_and_opcode (imm : BitVec 12) (rs1 : Reg) (f3 : BitVec 3) (rd : Reg) (op : BitVec 7) :
    wordI imm rs1 f3 rd op &&& 0x0000007F#32 = wordI 0#12 0#5 0#3 0#5 op := by
  rw [show (0x0000007F#32 : Word) = wordI 0#12 0#5 0#3 0#5 (BitVec.allOnes 7) by decide]
  apply BitVec.eq_of_getLsbD_eq
  intro i hi
  simp only [wordI, BitVec.getLsbD_and, BitVec.getLsbD_append, BitVec.getLsbD_allOnes,
    BitVec.getLsbD_zero]
  grind

/-- Immediate bit 10 clear, funct3 and the opcode select. -/
theorem wordI_and_srl (imm : BitVec 12) (rs1 : Reg) (f3 : BitVec 3) (rd : Reg) (op : BitVec 7) (h : imm.getLsbD 10 = false) :
    wordI imm rs1 f3 rd op &&& 0x4000707F#32 = wordI 0#12 0#5 f3 0#5 op := by
  have hk : ∀ k, (imm &&& 0x400#12).getLsbD k = (0#12).getLsbD k := by
    rw [show imm &&& 0x400#12 = 0#12 by revert imm; decide]
    exact fun _ => rfl
  rw [show (0x4000707F#32 : Word) = wordI 0x400#12 0#5 (BitVec.allOnes 3) 0#5 (BitVec.allOnes 7) by decide]
  apply BitVec.eq_of_getLsbD_eq
  intro i hi
  simp only [BitVec.getLsbD_and] at hk
  simp only [wordI, BitVec.getLsbD_and, BitVec.getLsbD_append, BitVec.getLsbD_allOnes, BitVec.getLsbD_zero]
  grind

/-- Immediate bit 10 set, funct3 and the opcode select. -/
theorem wordI_and_sra (imm : BitVec 12) (rs1 : Reg) (f3 : BitVec 3) (rd : Reg) (op : BitVec 7) (h : imm.getLsbD 10 = true) :
    wordI imm rs1 f3 rd op &&& 0x4000707F#32 = wordI 0x400#12 0#5 f3 0#5 op := by
  have hk : ∀ k, (imm &&& 0x400#12).getLsbD k = (0x400#12).getLsbD k := by
    rw [show imm &&& 0x400#12 = 0x400#12 by revert imm; decide]
    exact fun _ => rfl
  rw [show (0x4000707F#32 : Word) = wordI 0x400#12 0#5 (BitVec.allOnes 3) 0#5 (BitVec.allOnes 7) by decide]
  apply BitVec.eq_of_getLsbD_eq
  intro i hi
  simp only [BitVec.getLsbD_and] at hk
  simp only [wordI, BitVec.getLsbD_and, BitVec.getLsbD_append, BitVec.getLsbD_allOnes, BitVec.getLsbD_zero]
  grind

/-- funct3 and the opcode select. -/
theorem wordS_and_funct3 (imm : BitVec 12) (rs2 rs1 : Reg) (f3 : BitVec 3) (op : BitVec 7) :
    wordS imm rs2 rs1 f3 op &&& 0x0000707F#32 = wordS 0#12 0#5 0#5 f3 op := by
  rw [show (0x0000707F#32 : Word) = wordS 0#12 0#5 0#5 (BitVec.allOnes 3) (BitVec.allOnes 7) by decide]
  apply BitVec.eq_of_getLsbD_eq
  intro i hi
  simp only [wordS, BitVec.getLsbD_and, BitVec.getLsbD_append, BitVec.getLsbD_extractLsb', BitVec.getLsbD_allOnes,
    BitVec.getLsbD_zero]
  grind

/-- funct3 and the opcode select. -/
theorem wordB_and_funct3 (off : BitVec 13) (rs2 rs1 : Reg) (f3 : BitVec 3) (op : BitVec 7) :
    wordB off rs2 rs1 f3 op &&& 0x0000707F#32 = wordB 0#13 0#5 0#5 f3 op := by
  rw [show (0x0000707F#32 : Word) = wordB 0#13 0#5 0#5 (BitVec.allOnes 3) (BitVec.allOnes 7) by decide]
  apply BitVec.eq_of_getLsbD_eq
  intro i hi
  simp only [wordB, BitVec.getLsbD_and, BitVec.getLsbD_append, BitVec.getLsbD_extractLsb', BitVec.getLsbD_allOnes,
    BitVec.getLsbD_zero]
  grind

/-- The opcode selects. -/
theorem wordU_and_opcode (imm20 : BitVec 20) (rd : Reg) (op : BitVec 7) :
    wordU imm20 rd op &&& 0x0000007F#32 = wordU 0#20 0#5 op := by
  rw [show (0x0000007F#32 : Word) = wordU 0#20 0#5 (BitVec.allOnes 7) by decide]
  apply BitVec.eq_of_getLsbD_eq
  intro i hi
  simp only [wordU, BitVec.getLsbD_and, BitVec.getLsbD_append, BitVec.getLsbD_allOnes,
    BitVec.getLsbD_zero]
  grind

/-- The opcode selects. -/
theorem wordJ_and_opcode (off : BitVec 21) (rd : Reg) (op : BitVec 7) :
    wordJ off rd op &&& 0x0000007F#32 = wordJ 0#21 0#5 op := by
  rw [show (0x0000007F#32 : Word) = wordJ 0#21 0#5 (BitVec.allOnes 7) by decide]
  apply BitVec.eq_of_getLsbD_eq
  intro i hi
  simp only [wordJ, BitVec.getLsbD_and, BitVec.getLsbD_append, BitVec.getLsbD_extractLsb', BitVec.getLsbD_allOnes,
    BitVec.getLsbD_zero]
  grind

/-- The opcode selects. -/
theorem wordRest_and_opcode (rest : BitVec 25) (op : BitVec 7) :
    wordRest rest op &&& 0x0000007F#32 = wordRest 0#25 op := by
  rw [show (0x0000007F#32 : Word) = wordRest 0#25 (BitVec.allOnes 7) by decide]
  apply BitVec.eq_of_getLsbD_eq
  intro i hi
  simp only [wordRest, BitVec.getLsbD_and, BitVec.getLsbD_append, BitVec.getLsbD_allOnes,
    BitVec.getLsbD_zero]
  grind

/-- The word of a well-formed instruction has the fixed bits of its row of opcode_table.json. -/
def Row.Statement (i : Instr) : Prop := i.wf = true → encode i &&& tableMask i = tableMatch i

theorem Row.add (rd rs1 rs2 : Reg) : Row.Statement (.add rd rs1 rs2) :=
  fun _ => (Laws.wordR_and_register ..).trans rfl
theorem Row.sub (rd rs1 rs2 : Reg) : Row.Statement (.sub rd rs1 rs2) :=
  fun _ => (Laws.wordR_and_register ..).trans rfl
theorem Row.sll (rd rs1 rs2 : Reg) : Row.Statement (.sll rd rs1 rs2) :=
  fun _ => (Laws.wordR_and_register ..).trans rfl
theorem Row.slt (rd rs1 rs2 : Reg) : Row.Statement (.slt rd rs1 rs2) :=
  fun _ => (Laws.wordR_and_register ..).trans rfl
theorem Row.sltu (rd rs1 rs2 : Reg) : Row.Statement (.sltu rd rs1 rs2) :=
  fun _ => (Laws.wordR_and_register ..).trans rfl
theorem Row.xor (rd rs1 rs2 : Reg) : Row.Statement (.xor rd rs1 rs2) :=
  fun _ => (Laws.wordR_and_register ..).trans rfl
theorem Row.srl (rd rs1 rs2 : Reg) : Row.Statement (.srl rd rs1 rs2) :=
  fun _ => (Laws.wordR_and_register ..).trans rfl
theorem Row.sra (rd rs1 rs2 : Reg) : Row.Statement (.sra rd rs1 rs2) :=
  fun _ => (Laws.wordR_and_register ..).trans rfl
theorem Row.or (rd rs1 rs2 : Reg) : Row.Statement (.or rd rs1 rs2) :=
  fun _ => (Laws.wordR_and_register ..).trans rfl
theorem Row.and (rd rs1 rs2 : Reg) : Row.Statement (.and rd rs1 rs2) :=
  fun _ => (Laws.wordR_and_register ..).trans rfl
theorem Row.mul (rd rs1 rs2 : Reg) : Row.Statement (.mul rd rs1 rs2) :=
  fun _ => (Laws.wordR_and_register ..).trans rfl
theorem Row.mulh (rd rs1 rs2 : Reg) : Row.Statement (.mulh rd rs1 rs2) :=
  fun _ => (Laws.wordR_and_register ..).trans rfl
theorem Row.mulhsu (rd rs1 rs2 : Reg) : Row.Statement (.mulhsu rd rs1 rs2) :=
  fun _ => (Laws.wordR_and_register ..).trans rfl
theorem Row.mulhu (rd rs1 rs2 : Reg) : Row.Statement (.mulhu rd rs1 rs2) :=
  fun _ => (Laws.wordR_and_register ..).trans rfl
theorem Row.div (rd rs1 rs2 : Reg) : Row.Statement (.div rd rs1 rs2) :=
  fun _ => (Laws.wordR_and_register ..).trans rfl
theorem Row.divu (rd rs1 rs2 : Reg) : Row.Statement (.divu rd rs1 rs2) :=
  fun _ => (Laws.wordR_and_register ..).trans rfl
theorem Row.rem (rd rs1 rs2 : Reg) : Row.Statement (.rem rd rs1 rs2) :=
  fun _ => (Laws.wordR_and_register ..).trans rfl
theorem Row.remu (rd rs1 rs2 : Reg) : Row.Statement (.remu rd rs1 rs2) :=
  fun _ => (Laws.wordR_and_register ..).trans rfl
theorem Row.addi (rd rs1 : Reg) (imm : BitVec 12) : Row.Statement (.addi rd rs1 imm) :=
  fun _ => (Laws.wordI_and_funct3 ..).trans rfl
theorem Row.slti (rd rs1 : Reg) (imm : BitVec 12) : Row.Statement (.slti rd rs1 imm) :=
  fun _ => (Laws.wordI_and_funct3 ..).trans rfl
theorem Row.sltiu (rd rs1 : Reg) (imm : BitVec 12) : Row.Statement (.sltiu rd rs1 imm) :=
  fun _ => (Laws.wordI_and_funct3 ..).trans rfl
theorem Row.xori (rd rs1 : Reg) (imm : BitVec 12) : Row.Statement (.xori rd rs1 imm) :=
  fun _ => (Laws.wordI_and_funct3 ..).trans rfl
theorem Row.ori (rd rs1 : Reg) (imm : BitVec 12) : Row.Statement (.ori rd rs1 imm) :=
  fun _ => (Laws.wordI_and_funct3 ..).trans rfl
theorem Row.andi (rd rs1 : Reg) (imm : BitVec 12) : Row.Statement (.andi rd rs1 imm) :=
  fun _ => (Laws.wordI_and_funct3 ..).trans rfl
theorem Row.slli (rd rs1 : Reg) (imm : BitVec 12) : Row.Statement (.slli rd rs1 imm) :=
  fun _ => (Laws.wordI_and_funct3 ..).trans rfl
theorem Row.srli (rd rs1 : Reg) (imm : BitVec 12) : Row.Statement (.srli rd rs1 imm) :=
  fun h =>
  (Laws.wordI_and_srl imm rs1 5#3 rd 0b0010011#7 (by simpa [Instr.wf] using h)).trans rfl
theorem Row.srai (rd rs1 : Reg) (imm : BitVec 12) : Row.Statement (.srai rd rs1 imm) :=
  fun h =>
  (Laws.wordI_and_sra imm rs1 5#3 rd 0b0010011#7 (by simpa [Instr.wf] using h)).trans rfl
theorem Row.lui (rd : Reg) (imm20 : BitVec 20) : Row.Statement (.lui rd imm20) :=
  fun _ => (Laws.wordU_and_opcode ..).trans rfl
theorem Row.auipc (rd : Reg) (imm20 : BitVec 20) : Row.Statement (.auipc rd imm20) :=
  fun _ => (Laws.wordU_and_opcode ..).trans rfl
theorem Row.jal (rd : Reg) (off : BitVec 21) : Row.Statement (.jal rd off) :=
  fun _ => (Laws.wordJ_and_opcode ..).trans rfl
theorem Row.jalr (rd rs1 : Reg) (imm : BitVec 12) (funct3 : BitVec 3) : Row.Statement (.jalr rd rs1 imm funct3) :=
  fun _ => (Laws.wordI_and_opcode ..).trans rfl
theorem Row.beq (rs1 rs2 : Reg) (off : BitVec 13) : Row.Statement (.beq rs1 rs2 off) :=
  fun _ => (Laws.wordB_and_funct3 ..).trans rfl
theorem Row.bne (rs1 rs2 : Reg) (off : BitVec 13) : Row.Statement (.bne rs1 rs2 off) :=
  fun _ => (Laws.wordB_and_funct3 ..).trans rfl
theorem Row.blt (rs1 rs2 : Reg) (off : BitVec 13) : Row.Statement (.blt rs1 rs2 off) :=
  fun _ => (Laws.wordB_and_funct3 ..).trans rfl
theorem Row.bge (rs1 rs2 : Reg) (off : BitVec 13) : Row.Statement (.bge rs1 rs2 off) :=
  fun _ => (Laws.wordB_and_funct3 ..).trans rfl
theorem Row.bltu (rs1 rs2 : Reg) (off : BitVec 13) : Row.Statement (.bltu rs1 rs2 off) :=
  fun _ => (Laws.wordB_and_funct3 ..).trans rfl
theorem Row.bgeu (rs1 rs2 : Reg) (off : BitVec 13) : Row.Statement (.bgeu rs1 rs2 off) :=
  fun _ => (Laws.wordB_and_funct3 ..).trans rfl
theorem Row.lb (rd rs1 : Reg) (imm : BitVec 12) : Row.Statement (.lb rd rs1 imm) :=
  fun _ => (Laws.wordI_and_funct3 ..).trans rfl
theorem Row.lh (rd rs1 : Reg) (imm : BitVec 12) : Row.Statement (.lh rd rs1 imm) :=
  fun _ => (Laws.wordI_and_funct3 ..).trans rfl
theorem Row.lw (rd rs1 : Reg) (imm : BitVec 12) : Row.Statement (.lw rd rs1 imm) :=
  fun _ => (Laws.wordI_and_funct3 ..).trans rfl
theorem Row.lbu (rd rs1 : Reg) (imm : BitVec 12) : Row.Statement (.lbu rd rs1 imm) :=
  fun _ => (Laws.wordI_and_funct3 ..).trans rfl
theorem Row.lhu (rd rs1 : Reg) (imm : BitVec 12) : Row.Statement (.lhu rd rs1 imm) :=
  fun _ => (Laws.wordI_and_funct3 ..).trans rfl
theorem Row.sb (rs2 rs1 : Reg) (imm : BitVec 12) : Row.Statement (.sb rs2 rs1 imm) :=
  fun _ => (Laws.wordS_and_funct3 ..).trans rfl
theorem Row.sh (rs2 rs1 : Reg) (imm : BitVec 12) : Row.Statement (.sh rs2 rs1 imm) :=
  fun _ => (Laws.wordS_and_funct3 ..).trans rfl
theorem Row.sw (rs2 rs1 : Reg) (imm : BitVec 12) : Row.Statement (.sw rs2 rs1 imm) :=
  fun _ => (Laws.wordS_and_funct3 ..).trans rfl
theorem Row.fence (rd rs1 : Reg) (imm : BitVec 12) : Row.Statement (.fence rd rs1 imm) :=
  fun _ => (Laws.wordI_and_funct3 ..).trans rfl
theorem Row.fenceI (rd rs1 : Reg) (imm : BitVec 12) : Row.Statement (.fenceI rd rs1 imm) :=
  fun _ => (Laws.wordI_and_funct3 ..).trans rfl
theorem Row.ecall : Row.Statement .ecall := fun _ => by decide
theorem Row.ebreak : Row.Statement .ebreak := fun _ => by decide
theorem Row.csrrw (rd : Reg) (csr : BitVec 12) (rs1 : Reg) : Row.Statement (.csrrw rd csr rs1) :=
  fun _ => (Laws.wordI_and_funct3 ..).trans rfl
theorem Row.csrrs (rd : Reg) (csr : BitVec 12) (rs1 : Reg) : Row.Statement (.csrrs rd csr rs1) :=
  fun _ => (Laws.wordI_and_funct3 ..).trans rfl
theorem Row.csrrc (rd : Reg) (csr : BitVec 12) (rs1 : Reg) : Row.Statement (.csrrc rd csr rs1) :=
  fun _ => (Laws.wordI_and_funct3 ..).trans rfl
theorem Row.csrrwi (rd : Reg) (csr : BitVec 12) (uimm : BitVec 5) : Row.Statement (.csrrwi rd csr uimm) :=
  fun _ => (Laws.wordI_and_funct3 ..).trans rfl
theorem Row.csrrsi (rd : Reg) (csr : BitVec 12) (uimm : BitVec 5) : Row.Statement (.csrrsi rd csr uimm) :=
  fun _ => (Laws.wordI_and_funct3 ..).trans rfl
theorem Row.csrrci (rd : Reg) (csr : BitVec 12) (uimm : BitVec 5) : Row.Statement (.csrrci rd csr uimm) :=
  fun _ => (Laws.wordI_and_funct3 ..).trans rfl
theorem Row.mret : Row.Statement .mret := fun _ => by decide
theorem Row.sret : Row.Statement .sret := fun _ => by decide
theorem Row.wfi : Row.Statement .wfi := fun _ => by decide
theorem Row.sfenceVma (rs1 rs2 : Reg) : Row.Statement (.sfenceVma rs1 rs2) :=
  fun _ => (Laws.wordR_and_noRd ..).trans rfl
theorem Row.lrW (rd rs1 : Reg) (aqrl : BitVec 2) : Row.Statement (.lrW rd rs1 aqrl) :=
  fun _ => (Laws.wordR_and_reserved ..).trans rfl
theorem Row.scW (rd rs1 rs2 : Reg) (aqrl : BitVec 2) : Row.Statement (.scW rd rs1 rs2 aqrl) :=
  fun _ => (Laws.wordR_and_funct5 ..).trans rfl
theorem Row.amo (rest : BitVec 25) : Row.Statement (.amo rest) := fun _ => (Laws.wordRest_and_opcode ..).trans rfl
theorem Row.loadFp (rest : BitVec 25) : Row.Statement (.loadFp rest) :=
  fun _ => (Laws.wordRest_and_opcode ..).trans rfl
theorem Row.storeFp (rest : BitVec 25) : Row.Statement (.storeFp rest) :=
  fun _ => (Laws.wordRest_and_opcode ..).trans rfl
theorem Row.opFp (rest : BitVec 25) : Row.Statement (.opFp rest) :=
  fun _ => (Laws.wordRest_and_opcode ..).trans rfl
theorem Row.fmadd (rest : BitVec 25) : Row.Statement (.fmadd rest) :=
  fun _ => (Laws.wordRest_and_opcode ..).trans rfl
theorem Row.fmsub (rest : BitVec 25) : Row.Statement (.fmsub rest) :=
  fun _ => (Laws.wordRest_and_opcode ..).trans rfl
theorem Row.fnmsub (rest : BitVec 25) : Row.Statement (.fnmsub rest) :=
  fun _ => (Laws.wordRest_and_opcode ..).trans rfl
theorem Row.fnmadd (rest : BitVec 25) : Row.Statement (.fnmadd rest) :=
  fun _ => (Laws.wordRest_and_opcode ..).trans rfl
theorem Row.op32 (rest : BitVec 25) : Row.Statement (.op32 rest) :=
  fun _ => (Laws.wordRest_and_opcode ..).trans rfl
theorem Row.opImm32 (rest : BitVec 25) : Row.Statement (.opImm32 rest) :=
  fun _ => (Laws.wordRest_and_opcode ..).trans rfl
theorem Row.custom0 (rest : BitVec 25) : Row.Statement (.custom0 rest) :=
  fun _ => (Laws.wordRest_and_opcode ..).trans rfl
theorem Row.custom1 (rest : BitVec 25) : Row.Statement (.custom1 rest) :=
  fun _ => (Laws.wordRest_and_opcode ..).trans rfl
theorem Row.custom2 (rest : BitVec 25) : Row.Statement (.custom2 rest) :=
  fun _ => (Laws.wordRest_and_opcode ..).trans rfl
theorem Row.custom3 (rest : BitVec 25) : Row.Statement (.custom3 rest) :=
  fun _ => (Laws.wordRest_and_opcode ..).trans rfl
theorem Row.anyOther (word : Word) : Row.Statement (.anyOther word) := fun _ => BitVec.and_zero

end Sys2Proof.Laws
end

