-- ==== Sys2Proof/Laws/Pipeline.lean ====
section
/-! SUPPORT. What a cycle can do (one inversion lemma), the fields after a commit, and that flushing a quiet state
changes nothing. -/

namespace Sys2Proof.Machine

/-- A cycle goes on exactly when it issues no reserved word, and then it is the commit of what Decode wrote. -/
theorem cycle_next_iff (s t : State) :
    cycle s = .next t ↔ s.issuesReserved = none ∧ t = commit s (decodeOut s) := by
  unfold cycle
  cases h : s.issuesReserved with
  | none => simp [eq_comm]
  | some c => simp

/-- A cycle is refused exactly when it issues a reserved word. -/
theorem cycle_refused_iff (s : State) (r : Refusal) :
    cycle s = .refused r ↔ ∃ c, s.issuesReserved = some c ∧ r = .reservedEncoding c := by
  unfold cycle
  cases h : s.issuesReserved with
  | none => simp
  | some c => simp [eq_comm]

/-- A cycle never faults. -/
theorem cycle_ne_fault (s : State) (f : Fault) : cycle s ≠ .fault f := by
  unfold cycle
  split <;> simp

/-- A word is issued as reserved exactly when Decode issues and the word lies in a reserved cell. -/
theorem State.issuesReserved_eq_some (s : State) (c : Reserved) :
    s.issuesReserved = some c ↔ s.decodeCase = .issue ∧ decode s.ifid.word = .error c := by
  unfold State.issuesReserved reservedCell
  cases hd : s.decodeCase <;> cases hw : decode s.ifid.word <;> simp

/-! ## The fields after a commit -/

@[simp] theorem commit_unwrittenRead (s : State) (d : DecodeOut) : (commit s d).unwrittenRead = (s.unwrittenRead || d.unwritten) := rfl
@[simp] theorem commit_pcF (s : State) (d : DecodeOut) : (commit s d).pcF = currentFetchPc s d.stall := rfl
@[simp] theorem commit_npcF (s : State) (d : DecodeOut) : (commit s d).npcF = nextFetchPc s d.stall := rfl
@[simp] theorem commit_ifid (s : State) (d : DecodeOut) : (commit s d).ifid = fetchOut s d.stall := rfl
@[simp] theorem commit_idex (s : State) (d : DecodeOut) : (commit s d).idex = d.idex := rfl
@[simp] theorem commit_exmem (s : State) (d : DecodeOut) : (commit s d).exmem = { inst := s.idex.inst, pc := s.idex.pc, alu := (signals s).alu, b := s.idex.b } := rfl
@[simp] theorem commit_memwb (s : State) (d : DecodeOut) : (commit s d).memwb = { inst := s.exmem.inst, pc := s.exmem.pc, alu := s.exmem.alu, mdata := (signals s).mdata } := rfl
@[simp] theorem commit_ctr (s : State) (d : DecodeOut) : (commit s d).ctr = (signals s).ctr := rfl
@[simp] theorem commit_hist (s : State) (d : DecodeOut) : (commit s d).hist = (signals s).hist := rfl
@[simp] theorem commit_irqCnt (s : State) (d : DecodeOut) : (commit s d).irqCnt = d.irqCnt := rfl
@[simp] theorem commit_irqActive (s : State) (d : DecodeOut) : (commit s d).irqActive = d.irqActive := rfl
@[simp] theorem commit_retAddr (s : State) (d : DecodeOut) : (commit s d).retAddr = (signals s).retNow := rfl
@[simp] theorem commit_mem (s : State) (d : DecodeOut) : (commit s d).mem = (signals s).mem := rfl
@[simp] theorem commit_blockIrq (s : State) (d : DecodeOut) : (commit s d).blockIrq = s.blockIrq := by
  unfold commit; simp only; split <;> simp
@[simp] theorem commit_uartOut (s : State) (d : DecodeOut) : (commit s d).uartOut = s.uartOut := by
  unfold commit; simp only; split <;> simp
@[simp] theorem commit_params (s : State) (d : DecodeOut) : (commit s d).params = s.params := by
  unfold commit; simp only; split <;> simp
@[simp] theorem commit_inbox (s : State) (d : DecodeOut) : (commit s d).inbox = s.inbox := by
  unfold commit; simp only; split <;> simp
@[simp] theorem commit_pace (s : State) (d : DecodeOut) : (commit s d).pace = s.pace := by
  unfold commit; simp only; split <;> simp

/-- The register file after a commit: WriteBack's destination alone changes (50_pipeline.md R310). -/
theorem commit_readReg (s : State) (d : DecodeOut) (r : Reg) :
    (commit s d).readReg r =
      if r ≠ 0#5 ∧ s.memwb.inst.producer = true ∧ s.memwb.inst.rd = r then (signals s).wbVal else s.readReg r := by
  have h : (commit s d).readReg r =
      (if (signals s).wbEn then s.writeReg s.memwb.inst.rd (signals s).wbVal else s).readReg r := rfl
  have hen : (signals s).wbEn = (s.memwb.inst.producer && s.memwb.inst.rd != 0#5) := rfl
  rw [h, hen]
  cases s.memwb.inst.producer
  · simp
  · by_cases hz : s.memwb.inst.rd = 0#5
    · by_cases hr : r = 0#5
      · simp [hz, hr]
      · simp [hz, hr, Ne.symm hr]
    · by_cases hr : r = 0#5
      · simp [hz, hr]
      · by_cases he : r = s.memwb.inst.rd
        · simp [State.readReg_writeReg, hz, he]
        · simp [State.readReg_writeReg, hz, hr, he, Ne.symm he]

/-- Which registers are unwritten after a commit. -/
theorem commit_unwritten (s : State) (d : DecodeOut) (r : Reg) :
    (commit s d).unwritten r =
      (s.unwritten r && !(s.memwb.inst.producer && decide (s.memwb.inst.rd = r))) := by
  have h : (commit s d).unwritten r =
      (if (signals s).wbEn then s.writeReg s.memwb.inst.rd (signals s).wbVal else s).unwritten r := rfl
  have hen : (signals s).wbEn = (s.memwb.inst.producer && s.memwb.inst.rd != 0#5) := rfl
  rw [h, hen]
  cases s.memwb.inst.producer
  · simp
  · by_cases hz : s.memwb.inst.rd = 0#5
    · by_cases hr : r = 0#5
      · simp [hz, hr]
      · simp [hz, Ne.symm hr]
    · by_cases he : r = s.memwb.inst.rd
      · simp [State.unwritten_writeReg, hz, he]
      · simp [State.unwritten_writeReg, hz, he, Ne.symm he]

/-! ## Flushing -/

@[simp] theorem Inst.bubble_producer : Inst.bubble.producer = false := rfl
@[simp] theorem Inst.bubble_isLoad : Inst.bubble.isLoad = false := rfl
@[simp] theorem Inst.bubble_isStore : Inst.bubble.isStore = false := rfl
@[simp] theorem Inst.bubble_isBranch : Inst.bubble.isBranch = false := rfl
@[simp] theorem Inst.bubble_isCf : Inst.bubble.isCf = false := rfl

/-- No later stage holds anything but a bubble. -/
def State.drained (s : State) : Prop :=
  s.idex.inst = Inst.bubble ∧ s.exmem.inst = Inst.bubble ∧ s.memwb.inst = Inst.bubble

/-- A drain cycle of a drained state moves nothing but the unused fields of the bubbles. -/
theorem drainCycle_of_drained (s : State) (h : s.drained) :
    (drainCycle s).drained ∧ ∀ pc, (drainCycle s).restart pc = s.restart pc := by
  obtain ⟨h1, h2, h3⟩ := h
  have hs : squashes s.idex = false := by simp [squashes, h1]
  refine ⟨⟨rfl, h1, h2⟩, fun pc => ?_⟩
  simp [drainCycle, commit, State.restart, State.setPc, signals, hs, h1, h2, h3]

/-- A drain cycle of a drained state leaves the PC. -/
theorem drainCycle_pcF_of_drained (s : State) (h : s.drained) : (drainCycle s).pcF = s.pcF := by
  have hs : squashes s.idex = false := by simp [squashes, h.1]
  simp [drainCycle, currentFetchPc, signals, hs]

/-- Flushing a drained state only discards the word in IF/ID. -/
theorem State.flush_of_drained (s : State) (h : s.drained) : s.flush = s.restart s.pcF := by
  obtain ⟨d1, e1⟩ := drainCycle_of_drained s h
  obtain ⟨d2, e2⟩ := drainCycle_of_drained _ d1
  have e3 := (drainCycle_of_drained _ d2).2
  simp only [State.flush, e3, e2, e1, drainCycle_pcF_of_drained _ d2, drainCycle_pcF_of_drained _ d1,
    drainCycle_pcF_of_drained _ h]

/-- A quiet state is its own flush. -/
theorem State.flush_of_quiet (s : State) (h : s.quiet = true) : s.flush = s := by
  simp only [State.quiet, Bool.and_eq_true, decide_eq_true_eq] at h
  obtain ⟨⟨⟨⟨h1, h2⟩, h3⟩, h4⟩, h5⟩ := h
  rw [State.flush_of_drained s ⟨by rw [h3]; rfl, by rw [h4]; rfl, by rw [h5]; rfl⟩]
  cases s
  simp_all [State.restart, State.setPc]

/-- What flushing does to the fetch and pipeline registers. -/
@[simp] theorem State.flush_quiet (s : State) : s.flush.quiet = true := by
  simp [State.flush, State.quiet]

end Sys2Proof.Machine
end

