-- ==== Sys2Proof/Laws/Step.lean ====
section
/-! SUPPORT. What a step is, case by case, and that a halted clock keeps the state however many steps pass,
and what of the host `interrupt()` leaves alone. -/

namespace Sys2Proof.Machine

theorem step_illegal {s : State} (h : s.params.legal = false) : step s = .fault .illegalParameters := by
  simp [step, h]

theorem step_action {s : State} {a : HostAction} {rest : List HostAction} (h : s.params.legal = true)
    (hi : s.inbox = a :: rest) : step s = hostAction a { s with inbox := rest } := by
  simp [step, h, hi]

theorem step_instruction {s : State} (h : s.params.legal = true) (hi : s.inbox = []) (hp : s.pace = .instruction) :
    step s = runInstruction s := by
  simp [step, h, hi, hp]

theorem step_cycle {s : State} (h : s.params.legal = true) (hi : s.inbox = []) (hp : s.pace = .cycle) :
    step s = cycle s := by
  simp [step, h, hi, hp]

theorem step_halted {s : State} (h : s.params.legal = true) (hi : s.inbox = []) (hp : s.pace = .halted) :
    step s = .next s := by
  simp [step, h, hi, hp]

/-- A state that steps to itself is where every run from it ends. -/
theorem run_fixed {M : Host.Core} {x : M.State} (h : M.step x = .next x) (n : Nat) : M.run n x = .next x := by
  induction n with
  | zero => rfl
  | succ n ih => simp only [Host.Core.run, h, ih]

theorem run_halted {s : State} (h : s.params.legal = true) (hi : s.inbox = []) (hp : s.pace = .halted) (n : Nat) :
    Sys2Proof.core.run n s = .next s :=
  run_fixed (M := Sys2Proof.core) (step_halted h hi hp) n

/-- A cycle neither reads nor changes the pace. -/
theorem cycle_withPace (s : State) (x : Pace) :
    cycle { s with pace := x } = match cycle s with
      | .next t => .next { t with pace := x }
      | .fault r => .fault r
      | .refused r => .refused r := by
  have e : State.issuesReserved { s with pace := x } = s.issuesReserved := rfl
  unfold cycle
  rw [e]
  cases s.issuesReserved with
  | some c => rfl
  | none =>
    simp only [Host.Outcome.next.injEq]
    show commit { s with pace := x } (decodeOut s) = _
    unfold commit
    have e2 : (signals { s with pace := x }) = signals s := rfl
    rw [e2]
    cases hw : (signals s).wbEn
    · simp only [hw]; rfl
    · simp only [hw, State.writeReg]
      by_cases hz : s.memwb.inst.rd = 0#5 <;> simp only [hz, if_true, if_false] <;> rfl

/-! ## `interrupt()` leaves the host's clock and buffer alone -/

@[simp] theorem State.irq_pace (s : State) : s.irq.pace = s.pace := by unfold State.irq; split <;> rfl

@[simp] theorem State.observeAcknowledge_pace (s : State) : s.observeAcknowledge.pace = s.pace := by
  unfold State.observeAcknowledge; split <;> rfl

@[simp] theorem State.interrupt_pace (s : State) : s.interrupt.pace = s.pace := by
  unfold State.interrupt
  dsimp only
  split <;> simp

@[simp] theorem State.irq_uartOut (s : State) : s.irq.uartOut = s.uartOut := by unfold State.irq; split <;> rfl

@[simp] theorem State.observeAcknowledge_uartOut (s : State) : s.observeAcknowledge.uartOut = s.uartOut := by
  unfold State.observeAcknowledge; split <;> rfl

@[simp] theorem State.interrupt_uartOut (s : State) : s.interrupt.uartOut = s.uartOut := by
  unfold State.interrupt
  dsimp only
  split <;> simp

end Sys2Proof.Machine
end

