-- ==== Sys2Proof/Tests/Slice0.lean ====
section
/-! SUPPORT. The model's own tests: ill-formed terms, words written out from the spec's encodings, one step on the
worked examples of the spec, one cycle on states built by hand, and for every statement with hypotheses a state that
meets them. Expected results are the spec's, named by rule. -/

namespace Sys2Proof.Tests

open Sys2Proof Sys2Proof.Machine

/-! ## Helpers -/

/-- A quiet state at `pc` with the given registers written and the given memory. -/
def stateAt (pc : Word) (regs : List (Reg × Word)) (mem : Memory) : State :=
  regs.foldl (fun s e => s.writeReg e.1 e.2) { State.reset.setPc pc with mem := mem }

def nextOf (r : Result) : Option State :=
  match r with
  | .next t => some t
  | .fault _ => none
  | .refused _ => none

def refusalOf (r : Result) : Option Refusal :=
  match r with
  | .next _ => none
  | .fault _ => none
  | .refused c => some c

/-- One step on the word placed at the PC. -/
def runWord (w : Nat) (s : State) : Option State := nextOf (step (s.withFetchWord 32 w))

def regAfter (w : Nat) (s : State) (r : Reg) : Option Word := (runWord w s).map (·.readReg r)

def pcAfter (w : Nat) (s : State) : Option Word := (runWord w s).map (·.pcF)

def wordAfter (w : Nat) (s : State) (a : Word) : Option Word := (runWord w s).map (fun t => readWord t.params t.mem a)

/-- Does the word change nothing but the PC? -/
def isNopWord (w : Nat) (s : State) : Bool :=
  let t := s.withFetchWord 32 w
  decide (nextOf (step t) = some (t.setPc (t.pcF + 4#32)))

/-- The shared memory state of 43_loadstore.md: 80, 7F, 00, 80 from 0x200 on. -/
def sharedMem : Memory := [(0x200, 0x80#8), (0x201, 0x7F#8), (0x203, 0x80#8)]

/-- Operands x1 and x2. -/
def withOperands (a b : Word) : State := stateAt 0#32 [(1#5, a), (2#5, b)] []

/-! ## Ill-formed terms are refused: one for each check -/

theorem test_wf_refuses_odd_branch : (Instr.beq 1#5 2#5 3#13).wf = false := by decide
theorem test_wf_refuses_odd_jump : (Instr.jal 1#5 1#21).wf = false := by decide
theorem test_wf_refuses_srli_with_bit_10 : (Instr.srli 1#5 2#5 0x404#12).wf = false := by decide
theorem test_wf_refuses_srai_without_bit_10 : (Instr.srai 1#5 2#5 0x004#12).wf = false := by decide
theorem test_wf_refuses_amo_that_is_lr : (Instr.amo (restOf 0x1000A1AF#32)).wf = false := by decide
theorem test_wf_refuses_amo_that_is_sc : (Instr.amo (restOf 0x1820A1AF#32)).wf = false := by decide
theorem test_wf_refuses_other_of_implemented_opcode : (Instr.anyOther 0x002081B3#32).wf = false := by decide
theorem test_wf_refuses_other_of_listed_opcode : (Instr.anyOther 0x0000A187#32).wf = false := by decide
theorem test_wf_refuses_other_of_fence_row : (Instr.anyOther 0x0FF0000F#32).wf = false := by decide
theorem test_wf_refuses_other_of_system_rows :
    (Instr.anyOther 0x00000073#32).wf = false ∧ (Instr.anyOther 0x300110F3#32).wf = false
      ∧ (Instr.anyOther 0x12000073#32).wf = false := by decide

/-! ## Words written out from the spec's encodings: every constructor -/

/-- 40_integer.md R142 to R151. -/
theorem test_decode_register_register :
    decode 0x002081B3#32 = .ok (.add 3#5 1#5 2#5)
      ∧ decode 0x402081B3#32 = .ok (.sub 3#5 1#5 2#5)
      ∧ decode 0x002091B3#32 = .ok (.sll 3#5 1#5 2#5)
      ∧ decode 0x0020A1B3#32 = .ok (.slt 3#5 1#5 2#5)
      ∧ decode 0x0020B1B3#32 = .ok (.sltu 3#5 1#5 2#5)
      ∧ decode 0x0020C1B3#32 = .ok (.xor 3#5 1#5 2#5)
      ∧ decode 0x0020D1B3#32 = .ok (.srl 3#5 1#5 2#5)
      ∧ decode 0x4020D1B3#32 = .ok (.sra 3#5 1#5 2#5)
      ∧ decode 0x0020E1B3#32 = .ok (.or 3#5 1#5 2#5)
      ∧ decode 0x0020F1B3#32 = .ok (.and 3#5 1#5 2#5) := by decide

/-- 41_muldiv.md R182 to R189. -/
theorem test_decode_muldiv :
    decode 0x022081B3#32 = .ok (.mul 3#5 1#5 2#5)
      ∧ decode 0x022091B3#32 = .ok (.mulh 3#5 1#5 2#5)
      ∧ decode 0x0220A1B3#32 = .ok (.mulhsu 3#5 1#5 2#5)
      ∧ decode 0x0220B1B3#32 = .ok (.mulhu 3#5 1#5 2#5)
      ∧ decode 0x0220C1B3#32 = .ok (.div 3#5 1#5 2#5)
      ∧ decode 0x0220D1B3#32 = .ok (.divu 3#5 1#5 2#5)
      ∧ decode 0x0220E1B3#32 = .ok (.rem 3#5 1#5 2#5)
      ∧ decode 0x0220F1B3#32 = .ok (.remu 3#5 1#5 2#5) := by decide

/-- 40_integer.md R152 to R162. -/
theorem test_decode_register_immediate :
    decode 0xFFF08193#32 = .ok (.addi 3#5 1#5 0xFFF#12)
      ∧ decode 0xFFF0A193#32 = .ok (.slti 3#5 1#5 0xFFF#12)
      ∧ decode 0xFFF0B193#32 = .ok (.sltiu 3#5 1#5 0xFFF#12)
      ∧ decode 0xFFF0C193#32 = .ok (.xori 3#5 1#5 0xFFF#12)
      ∧ decode 0x0F00E193#32 = .ok (.ori 3#5 1#5 0x0F0#12)
      ∧ decode 0x0FF0F193#32 = .ok (.andi 3#5 1#5 0x0FF#12)
      ∧ decode 0x01F09193#32 = .ok (.slli 3#5 1#5 0x01F#12)
      ∧ decode 0x0040D193#32 = .ok (.srli 3#5 1#5 0x004#12)
      ∧ decode 0x4040D193#32 = .ok (.srai 3#5 1#5 0x404#12)
      ∧ decode 0x123451B7#32 = .ok (.lui 3#5 0x12345#20)
      ∧ decode 0xFFFFF197#32 = .ok (.auipc 3#5 0xFFFFF#20) := by decide

/-- 42_control.md R204 to R211. -/
theorem test_decode_control :
    decode 0x008000EF#32 = .ok (.jal 1#5 8#21)
      ∧ decode 0xFFDFF06F#32 = .ok (.jal 0#5 0x1FFFFC#21)
      ∧ decode 0x004280E7#32 = .ok (.jalr 1#5 5#5 4#12 0#3)
      ∧ decode 0x00208863#32 = .ok (.beq 1#5 2#5 16#13)
      ∧ decode 0xFE209CE3#32 = .ok (.bne 1#5 2#5 0x1FF8#13)
      ∧ decode 0x0020C663#32 = .ok (.blt 1#5 2#5 12#13)
      ∧ decode 0x0020D663#32 = .ok (.bge 1#5 2#5 12#13)
      ∧ decode 0x0020E663#32 = .ok (.bltu 1#5 2#5 12#13)
      ∧ decode 0x0020F663#32 = .ok (.bgeu 1#5 2#5 12#13) := by decide

/-- 43_loadstore.md R234 to R241. -/
theorem test_decode_load_store :
    decode 0x00008183#32 = .ok (.lb 3#5 1#5 0#12)
      ∧ decode 0x00209183#32 = .ok (.lh 3#5 1#5 2#12)
      ∧ decode 0xFFC0A183#32 = .ok (.lw 3#5 1#5 0xFFC#12)
      ∧ decode 0x0010C183#32 = .ok (.lbu 3#5 1#5 1#12)
      ∧ decode 0x0020D183#32 = .ok (.lhu 3#5 1#5 2#12)
      ∧ decode 0x002081A3#32 = .ok (.sb 2#5 1#5 3#12)
      ∧ decode 0xFE209F23#32 = .ok (.sh 2#5 1#5 0xFFE#12)
      ∧ decode 0x0020A423#32 = .ok (.sw 2#5 1#5 8#12) := by decide

/-- 44_system_unallocated.md R251 to R262. -/
theorem test_decode_system :
    decode 0x0FF0000F#32 = .ok (.fence 0#5 0#5 0x0FF#12)
      ∧ decode 0x0000100F#32 = .ok (.fenceI 0#5 0#5 0#12)
      ∧ decode 0x00000073#32 = .ok .ecall
      ∧ decode 0x00100073#32 = .ok .ebreak
      ∧ decode 0x300110F3#32 = .ok (.csrrw 1#5 0x300#12 2#5)
      ∧ decode 0x300020F3#32 = .ok (.csrrs 1#5 0x300#12 0#5)
      ∧ decode 0x300130F3#32 = .ok (.csrrc 1#5 0x300#12 2#5)
      ∧ decode 0x3002D0F3#32 = .ok (.csrrwi 1#5 0x300#12 5#5)
      ∧ decode 0x3002E0F3#32 = .ok (.csrrsi 1#5 0x300#12 5#5)
      ∧ decode 0x3002F0F3#32 = .ok (.csrrci 1#5 0x300#12 5#5)
      ∧ decode 0x30200073#32 = .ok .mret
      ∧ decode 0x10200073#32 = .ok .sret
      ∧ decode 0x10500073#32 = .ok .wfi
      ∧ decode 0x12000073#32 = .ok (.sfenceVma 0#5 0#5) := by decide

/-- 44_system_unallocated.md R263 to R265, opcode_table.json. -/
theorem test_decode_unallocated :
    decode 0x1000A1AF#32 = .ok (.lrW 3#5 1#5 0#2)
      ∧ decode 0x1820A1AF#32 = .ok (.scW 3#5 1#5 2#5 0#2)
      ∧ decode 0x0020A1AF#32 = .ok (.amo 0x4143#25)
      ∧ decode 0x0000A187#32 = .ok (.loadFp 0x0143#25)
      ∧ decode 0x0020A027#32 = .ok (.storeFp 0x4140#25)
      ∧ decode 0x002081D3#32 = .ok (.opFp 0x4103#25)
      ∧ decode 0x00000043#32 = .ok (.fmadd 0#25)
      ∧ decode 0x00000047#32 = .ok (.fmsub 0#25)
      ∧ decode 0x0000004B#32 = .ok (.fnmsub 0#25)
      ∧ decode 0x0000004F#32 = .ok (.fnmadd 0#25)
      ∧ decode 0x002081BB#32 = .ok (.op32 0x4103#25)
      ∧ decode 0x0000001B#32 = .ok (.opImm32 0#25)
      ∧ decode 0x0020818B#32 = .ok (.custom0 0x4103#25)
      ∧ decode 0x0000002B#32 = .ok (.custom1 0#25)
      ∧ decode 0x0000005B#32 = .ok (.custom2 0#25)
      ∧ decode 0x0000007B#32 = .ok (.custom3 0#25)
      ∧ decode 0xFFFFFFFF#32 = .ok (.anyOther 0xFFFFFFFF#32)
      ∧ decode 0x00000000#32 = .ok (.anyOther 0#32) := by decide

/-- 30_encoding.md R118: JALR with any funct3; R112: SLLI with word[31:25] not 0. -/
theorem test_decode_ignored_bits :
    decode 0x004297E7#32 = .ok (.jalr 15#5 5#5 4#12 1#3) ∧ decode 0xFFF09193#32 = .ok (.slli 3#5 1#5 0xFFF#12)
      ∧ decode 0xFE0FFFE7#32 = .ok (.jalr 31#5 31#5 0xFE0#12 7#3) := by decide

/-- 30_encoding.md R120: one word of each reserved cell, and its neighbours that are none. -/
theorem test_decode_reserved :
    decode 0x04208033#32 = .error .registerFunct7 ∧ decode 0xFE208033#32 = .error .registerFunct7
      ∧ decode 0x40209033#32 = .error .invertedFunct3 ∧ decode 0x4020F033#32 = .error .invertedFunct3
      ∧ decode 0x0000B003#32 = .error .loadFunct3 ∧ decode 0x0000E003#32 = .error .loadFunct3
      ∧ decode 0x0000F003#32 = .error .loadFunct3
      ∧ decode 0x0000B023#32 = .error .storeFunct3 ∧ decode 0x0000F023#32 = .error .storeFunct3
      ∧ decode 0x0020A063#32 = .error .branchFunct3 ∧ decode 0x0020B063#32 = .error .branchFunct3 := by decide

/-- The opcode table's numbering: the word's bytes in little-endian order (20_memory.md R74). -/
theorem test_decode_table_word :
    decodeTableWord 32 0x002081B3 = some (.add 3#5 1#5 2#5) ∧ decodeTableWord 32 0x04208033 = none
      ∧ decodeBytes [0xB3#8, 0x81#8, 0x20#8, 0x00#8, 0x13#8] = .ok (.add 3#5 1#5 2#5, [0x13#8])
      ∧ decodeBytes [0xB3#8, 0x81#8, 0x20#8] = .error .truncated := by decide

/-! ## One step on the worked examples -/

/-- R142. -/
theorem test_add : regAfter 0x002081B3 (withOperands 0x7FFFFFFF#32 0x1#32) 3#5 = some 0x80000000#32 := by decide

/-- R143. -/
theorem test_sub : regAfter 0x402081B3 (withOperands 0x0#32 0x1#32) 3#5 = some 0xFFFFFFFF#32 := by decide

/-- R144. -/
theorem test_sll_by_33 : regAfter 0x002091B3 (withOperands 0x1#32 0x21#32) 3#5 = some 0x2#32 := by decide

/-- R145. -/
theorem test_slt : regAfter 0x0020A1B3 (withOperands 0xFFFFFFFF#32 0x1#32) 3#5 = some 0x1#32 := by decide

/-- R146. -/
theorem test_sltu : regAfter 0x0020B1B3 (withOperands 0xFFFFFFFF#32 0x1#32) 3#5 = some 0x0#32 := by decide

/-- R147. -/
theorem test_xor : regAfter 0x0020C1B3 (withOperands 0xF0F0F0F0#32 0xFFFF0000#32) 3#5 = some 0x0F0FF0F0#32 := by decide

/-- R148. -/
theorem test_srl : regAfter 0x0020D1B3 (withOperands 0x80000000#32 0x1F#32) 3#5 = some 0x1#32 := by decide

/-- R149. -/
theorem test_sra : regAfter 0x4020D1B3 (withOperands 0x80000000#32 0x1F#32) 3#5 = some 0xFFFFFFFF#32 := by decide

/-- R150. -/
theorem test_or : regAfter 0x0020E1B3 (withOperands 0xF0F00000#32 0xF0F0#32) 3#5 = some 0xF0F0F0F0#32 := by decide

/-- R151. -/
theorem test_and : regAfter 0x0020F1B3 (withOperands 0xF0F0F0F0#32 0xFFFF0000#32) 3#5 = some 0xF0F00000#32 := by decide

/-- R182. -/
theorem test_mul : regAfter 0x022081B3 (withOperands 0x7FFFFFFF#32 0x2#32) 3#5 = some 0xFFFFFFFE#32 := by decide

/-- R183. -/
theorem test_mulh : regAfter 0x022091B3 (withOperands 0xFFFFFFFF#32 0x2#32) 3#5 = some 0xFFFFFFFF#32 := by decide

/-- R183. -/
theorem test_mulh_least : regAfter 0x022091B3 (withOperands 0x80000000#32 0x80000000#32) 3#5 = some 0x40000000#32 := by decide

/-- R184. -/
theorem test_mulhsu : regAfter 0x0220A1B3 (withOperands 0xFFFFFFFF#32 0xFFFFFFFF#32) 3#5 = some 0xFFFFFFFF#32 := by decide

/-- R184. -/
theorem test_mulhsu_least : regAfter 0x0220A1B3 (withOperands 0x80000000#32 0xFFFFFFFF#32) 3#5 = some 0x80000000#32 := by decide

/-- R185. -/
theorem test_mulhu : regAfter 0x0220B1B3 (withOperands 0xFFFFFFFF#32 0xFFFFFFFF#32) 3#5 = some 0xFFFFFFFE#32 := by decide

/-- R186. -/
theorem test_div : regAfter 0x0220C1B3 (withOperands 0xFFFFFFF9#32 0x2#32) 3#5 = some 0xFFFFFFFD#32 := by decide

/-- R186. -/
theorem test_div_overflow : regAfter 0x0220C1B3 (withOperands 0x80000000#32 0xFFFFFFFF#32) 3#5 = some 0x80000000#32 := by decide

/-- R187. -/
theorem test_divu : regAfter 0x0220D1B3 (withOperands 0xFFFFFFF9#32 0x2#32) 3#5 = some 0x7FFFFFFC#32 := by decide

/-- R187. -/
theorem test_divu_by_zero : regAfter 0x0220D1B3 (withOperands 0x5#32 0x0#32) 3#5 = some 0xFFFFFFFF#32 := by decide

/-- R188. -/
theorem test_rem : regAfter 0x0220E1B3 (withOperands 0xFFFFFFF9#32 0x2#32) 3#5 = some 0xFFFFFFFF#32 := by decide

/-- R188. -/
theorem test_rem_by_zero : regAfter 0x0220E1B3 (withOperands 0xFFFFFFF9#32 0x0#32) 3#5 = some 0xFFFFFFF9#32 := by decide

/-- R189. -/
theorem test_remu : regAfter 0x0220F1B3 (withOperands 0xFFFFFFF9#32 0x2#32) 3#5 = some 0x1#32 := by decide

/-- R152. -/
theorem test_addi : regAfter 0xFFF08193 (withOperands 0x0#32 0x0#32) 3#5 = some 0xFFFFFFFF#32 := by decide

/-- R153. -/
theorem test_slti : regAfter 0xFFF0A193 (withOperands 0xFFFFFFFE#32 0x0#32) 3#5 = some 0x1#32 := by decide

/-- R154. -/
theorem test_sltiu : regAfter 0xFFF0B193 (withOperands 0xFFFFFFFE#32 0x0#32) 3#5 = some 0x1#32 := by decide

/-- R154. -/
theorem test_sltiu_equal : regAfter 0xFFF0B193 (withOperands 0xFFFFFFFF#32 0x0#32) 3#5 = some 0x0#32 := by decide

/-- R155. -/
theorem test_xori : regAfter 0xFFF0C193 (withOperands 0x12345678#32 0x0#32) 3#5 = some 0xEDCBA987#32 := by decide

/-- R156. -/
theorem test_ori : regAfter 0x0F00E193 (withOperands 0xF#32 0x0#32) 3#5 = some 0xFF#32 := by decide

/-- R157. -/
theorem test_andi : regAfter 0x0FF0F193 (withOperands 0x12345678#32 0x0#32) 3#5 = some 0x78#32 := by decide

/-- R158. -/
theorem test_slli : regAfter 0x01F09193 (withOperands 0x3#32 0x0#32) 3#5 = some 0x80000000#32 := by decide

/-- R159. -/
theorem test_srli : regAfter 0x0040D193 (withOperands 0x80000000#32 0x0#32) 3#5 = some 0x08000000#32 := by decide

/-- R160. -/
theorem test_srai : regAfter 0x4040D193 (withOperands 0x80000000#32 0x0#32) 3#5 = some 0xF8000000#32 := by decide

/-- R161, R162. -/
theorem test_lui : regAfter 0x123451B7 State.reset 3#5 = some 0x12345000#32 := by decide

theorem test_auipc : regAfter 0xFFFFF197 (stateAt 0x1000#32 [] []) 3#5 = some 0#32 := by decide

/-- R31: a write to x0 is discarded. -/
theorem test_write_to_x0 : regAfter 0x00208033 (withOperands 5#32 6#32) 0#5 = some 0#32
    ∧ pcAfter 0x00208033 (withOperands 5#32 6#32) = some 4#32 := by decide

/-- R204. -/
theorem test_jal : regAfter 0x008000EF (stateAt 0x100#32 [] []) 1#5 = some 0x104#32
    ∧ pcAfter 0x008000EF (stateAt 0x100#32 [] []) = some 0x108#32 := by decide

theorem test_jal_back : pcAfter 0xFFDFF06F (stateAt 0x100#32 [] []) = some 0xFC#32 := by decide

/-- R205; and rd = rs1, where the target uses the old value. -/
theorem test_jalr : regAfter 0x004280E7 (stateAt 0x100#32 [(5#5, 0x201#32)] []) 1#5 = some 0x104#32
    ∧ pcAfter 0x004280E7 (stateAt 0x100#32 [(5#5, 0x201#32)] []) = some 0x204#32 := by decide

theorem test_jalr_same_register : regAfter 0x004282E7 (stateAt 0x100#32 [(5#5, 0x201#32)] []) 5#5 = some 0x104#32
    ∧ pcAfter 0x004282E7 (stateAt 0x100#32 [(5#5, 0x201#32)] []) = some 0x204#32 := by decide

/-- R206. -/
theorem test_beq :
    pcAfter 0x00208863 (stateAt 0x100#32 [(1#5, 0x5#32), (2#5, 0x5#32)] []) = some 0x110#32 := by decide

/-- R207. -/
theorem test_bne :
    pcAfter 0xFE209CE3 (stateAt 0x100#32 [(1#5, 0x1#32), (2#5, 0x2#32)] []) = some 0xF8#32 := by decide

/-- R208. -/
theorem test_blt :
    pcAfter 0x0020C663 (stateAt 0x100#32 [(1#5, 0xFFFFFFFF#32), (2#5, 0x1#32)] []) = some 0x10C#32 := by decide

/-- R209. -/
theorem test_bge :
    pcAfter 0x0020D663 (stateAt 0x100#32 [(1#5, 0xFFFFFFFF#32), (2#5, 0x1#32)] []) = some 0x104#32 := by decide

/-- R210. -/
theorem test_bltu :
    pcAfter 0x0020E663 (stateAt 0x100#32 [(1#5, 0xFFFFFFFF#32), (2#5, 0x1#32)] []) = some 0x104#32 := by decide

/-- R211. -/
theorem test_bgeu :
    pcAfter 0x0020F663 (stateAt 0x100#32 [(1#5, 0xFFFFFFFF#32), (2#5, 0x1#32)] []) = some 0x10C#32 := by decide

/-- R318, R342: a taken branch counts up and shifts into the history. -/
theorem test_branch_updates_predictor :
    (runWord 0x00208863 (stateAt 0x100#32 [(1#5, 5#32), (2#5, 5#32)] [])).map (fun t => (t.ctr, t.hist))
      = some ([(0x100, 1#2)], [(0x100, 1#8)]) := by decide

/-- R234. -/
theorem test_lb : regAfter 0x00008183 (stateAt 0#32 [(1#5, 0x200#32)] sharedMem) 3#5 = some 0xFFFFFF80#32 := by decide

/-- R235. -/
theorem test_lh : regAfter 0x00209183 (stateAt 0#32 [(1#5, 0x200#32)] sharedMem) 3#5 = some 0xFFFF8000#32 := by decide

/-- R236. -/
theorem test_lw : regAfter 0xFFC0A183 (stateAt 0#32 [(1#5, 0x204#32)] sharedMem) 3#5 = some 0x80007F80#32 := by decide

/-- R236. -/
theorem test_lw_misaligned : regAfter 0x0000A183 (stateAt 0#32 [(1#5, 0x201#32)] sharedMem) 3#5 = some 0x0080007F#32 := by decide

/-- R237. -/
theorem test_lbu : regAfter 0x0010C183 (stateAt 0#32 [(1#5, 0x1FF#32)] sharedMem) 3#5 = some 0x80#32 := by decide

/-- R238. -/
theorem test_lhu : regAfter 0x0020D183 (stateAt 0#32 [(1#5, 0x200#32)] sharedMem) 3#5 = some 0x8000#32 := by decide

/-- R235: a half-word at the last byte of memory wraps to byte 0, which holds the LH's own first byte. -/
theorem test_lh_wraps : regAfter 0x00009183 (stateAt 0#32 [(1#5, 0xFFF#32)] [(0xFFF, 0x12#8)]) 3#5 = some 0xFFFF8312#32 := by
  decide

/-- R239. -/
theorem test_sb :
    wordAfter 0x002081A3 (stateAt 0#32 [(1#5, 0x200#32), (2#5, 0x12345678#32)] sharedMem) 0x200#32 = some 0x78007F80#32 := by decide

/-- R240. -/
theorem test_sh :
    wordAfter 0xFE209F23 (stateAt 0#32 [(1#5, 0x202#32), (2#5, 0x12345678#32)] sharedMem) 0x200#32 = some 0x80005678#32 := by decide

/-- R241. -/
theorem test_sw :
    wordAfter 0x0020A423 (stateAt 0#32 [(1#5, 0x1F8#32), (2#5, 0x12345678#32)] sharedMem) 0x200#32 = some 0x12345678#32 := by decide

/-- R241: a store at MEM_SIZE − 2 writes the last two bytes and the first two. -/
theorem test_sw_wraps :
    (runWord 0x0020A023 (stateAt 0x100#32 [(1#5, 0xFFE#32), (2#5, 0x12345678#32)] [])).map
        (fun t => [0xFFE, 0xFFF, 0, 1].map (sparseGet 0#8 t.mem)) = some [0x78#8, 0x56#8, 0x34#8, 0x12#8] := by decide

/-- R250 to R265: each of these words changes nothing but the pc. -/
theorem test_system_words_are_nops :
    [0x0FF0000F, 0x0000100F, 0x00000073, 0x00100073, 0x300110F3, 0xC00020F3, 0x300130F3, 0x3002D0F3, 0x3002E0F3,
      0x3002F0F3, 0x30200073, 0x10200073, 0x10500073, 0x12000073].all
        (fun w => isNopWord w (stateAt 0x100#32 [(1#5, 7#32), (2#5, 1#32)] [])) = true := by decide

theorem test_unallocated_words_are_nops :
    [0x1000A1AF, 0x1820A1AF, 0x0020A1AF, 0x0000A187, 0x0020A027, 0x002081D3, 0x43, 0x47, 0x4B, 0x4F, 0x002081BB, 0x1B,
      0x0020818B, 0x2B, 0x5B, 0x7B, 0xFFFFFFFF].all
        (fun w => isNopWord w (stateAt 0x100#32 [(1#5, 0x200#32), (2#5, 1#32)] sharedMem)) = true := by decide

/-- R120: a reserved word is refused at issue. -/
theorem test_reserved_word_is_refused :
    refusalOf (step (State.reset.withFetchWord 32 0x0000B003)) = some (.reservedEncoding .loadFunct3) := by decide

/-- R35: reading a register nothing has written is reported; reading a written one is not (notes/assumptions/3.md). -/
theorem test_unwritten_read_is_reported :
    (runWord 0x002081B3 (stateAt 0#32 [(1#5, 5#32)] [])).map (·.unwrittenRead) = some true
      ∧ (runWord 0x002081B3 (withOperands 5#32 3#32)).map (·.unwrittenRead) = some false := by decide

/-! ## One cycle, one host action -/

/-- The words `w0` at 0 and `w1` at 4, the first of them in IF/ID: the state one cycle after reset (R504). -/
def fetched (w0 w1 : Word) : State :=
  { State.reset with
    mem := writeWord State.reset.params (writeWord State.reset.params [] 0#32 w0) 4#32 w1
    npcF := 4#32, ifid := { word := w0, pc := 0#32, pred := 4#32 } }

/-- R504: the cycle after reset. -/
theorem test_first_cycle :
    nextOf (cycle { fetched 0x00500093#32 0x001080B3#32 with npcF := 0#32, ifid := IfId.restart 0#32 })
      = some { fetched 0x00500093#32 0x001080B3#32 with
          idex := { inst := decodeRecord nopWord, pc := 0#32, pred := 0#32, a := 0#32, b := 0#32, irqj := false } } := by
  decide

/-- An instruction with record `decodeRecord w` in ID/EX at `pc`. -/
def executing (w : Word) (pc pred a b : Word) : IdEx :=
  { inst := decodeRecord w, pc := pc, pred := pred, a := a, b := b, irqj := false }

/-- ADDI x1 in Execute, ADD x2, x1, x1 in Decode (R327: forwarded, no stall). -/
def forwardingState : State :=
  { fetched 0x00108133#32 0#32 with idex := executing 0x00500093#32 0xFFC#32 0#32 0#32 0#32 }

theorem test_forward_from_execute :
    forwardingState.decodeCase = .issue ∧ operandValue forwardingState 1#5 = 5#32 := by decide

/-- LW x1 in Execute, ADD x2, x1, x1 in Decode (R330: one stall cycle). -/
def hazardState : State :=
  { fetched 0x00108133#32 0#32 with idex := executing 0x00002083#32 0xFFC#32 0#32 0#32 0#32 }

theorem test_load_use_stalls :
    hazardState.decodeCase = .hazard ∧ (nextOf (cycle hazardState)).map (·.decodeCase) = some .issue := by decide

/-- BEQ x0, x0, +16 in Execute, predicted not taken (R317). -/
def mispredictedState : State :=
  { fetched 0x00108133#32 0#32 with idex := executing 0x00000863#32 0xFF0#32 0#32 0#32 0#32 }

theorem test_misprediction_redirects :
    mispredictedState.decodeCase = .squash ∧ (nextOf (cycle mispredictedState)).map (·.pcF) = some 0x1000#32
      ∧ (nextOf (cycle mispredictedState)).map (·.idex.inst) = some Inst.bubble := by decide

/-- The countdown with `n` cycles left. -/
def countdownState (n : Nat) : State :=
  { fetched 0x00108133#32 0#32 with irqActive := true, irqCnt := n, blockIrq := true }

theorem test_irq_jump :
    (nextOf (cycle (countdownState 1))).map (fun t => (t.idex.pc, t.idex.inst.imm, t.idex.inst.rd, t.irqActive))
      = some (0xFFFFFFFC#32, 0x104#32, 31#5, false) := by decide

/-- R410, R431: a key press with IRQ_EN set. -/
theorem test_keypress :
    nextOf (hostAction (.keypress 0x41#8) (State.reset.setMmio 4 1#8))
      = some { State.reset with mem := [(0xFFA, 1#8), (0xFFC, 1#8), (0xFFF, 0x41#8)], blockIrq := true,
                                irqActive := true, irqCnt := 3 } := by decide

/-- R411: with one in flight the event is dropped, but it writes its bytes. -/
theorem test_dropped_event :
    nextOf (hostAction .timerEvent { State.reset.setMmio 4 1#8 with blockIrq := true })
      = some { State.reset with mem := [(0xFFA, 3#8), (0xFFC, 1#8)], blockIrq := true } := by decide

/-- R434: the timer wraps. -/
theorem test_timer_tick :
    nextOf (hostAction .timerTick (State.reset.setMmio 7 0xFF#8)) = some State.reset := by decide

/-- R311: SH in Memory stores the low half at the end of its cycle, across the top of memory. -/
theorem test_store_in_memory_stage :
    (nextOf (cycle { State.reset with exmem := { inst := decodeRecord 0x00209023#32, pc := 0#32, alu := 0xFFF#32,
                                                 b := 0x11223344#32 } })).map (·.mem)
      = some [(0, 0x33#8), (0xFFF, 0x44#8)] := by decide

/-- R505, R507: `stop()` in the middle of a run, and the step after it, change nothing but the pace. -/
theorem test_stop_keeps_state :
    let s := fetched 0x00500093#32 0x001080B3#32
    (nextOf (step { s with pace := .cycle, inbox := [.stop] })).bind (fun h => nextOf (step h))
      = some { s with pace := .halted } := by decide

/-- R505: `step()` while halted is one cycle, and the clock stays halted. -/
theorem test_single_cycle_while_halted :
    (nextOf (step { State.reset with pace := .halted, inbox := [.clock] })).map (fun t => (t.pace, t.ifid.pc, t.npcF))
      = some (.halted, 0#32, 4#32) := by decide

/-- R435. -/
theorem test_uart_drain :
    nextOf (hostAction .uartDrain ((State.reset.setMmio 2 0x42#8).setMmio 8 1#8))
      = some { State.reset with mem := [(0xFFE, 0x42#8)], uartOut := [0x42#8] } := by decide

/-- R501, R502. -/
theorem test_load_program :
    nextOf (hostAction (.loadProgram 5 [0x13#8, 0#8, 7#8]) (stateAt 8#32 [(1#5, 5#32)] sharedMem))
      = some { State.initial { Params.vectors with memLog := 5 } with mem := [(0, 0x13#8), (2, 7#8)] } := by decide

theorem test_image_too_large :
    refusalOf (hostAction (.loadProgram 4 (List.replicate 17 0#8)) State.reset) = some .imageTooLarge := by decide

/-! ## Witnesses: for each statement with hypotheses, a state that meets them -/

theorem test_witness_params_legal : Params.vectors.legal = true ∧ Params.vectors.irqLink ≠ 0#5 := by decide

theorem test_witness_EncodeDecodeRoundTrip : (Instr.srai 3#5 1#5 0x404#12).wf = true := by decide

theorem test_witness_DecodeEncodeExact : decode 0x4040D193#32 = .ok (.srai 3#5 1#5 0x404#12) := by decide

theorem test_witness_RecordRoundTrip : (0x1FFE#13).getLsbD 0 = false ∧ (0x1FFFFE#21).getLsbD 0 = false := by decide

/-- A reserved word behind a mispredicted branch is discarded. -/
theorem test_witness_ReservedCellsExactly :
    squashes mispredictedState.idex = true
      ∧ (nextOf (cycle { mispredictedState with ifid := { mispredictedState.ifid with word := 0x0000B003#32 } })).isSome
        = true := by decide

theorem test_witness_UnimplementedOpcodesAreNops :
    (0xFFFFFFFF#32).extractLsb' 0 7 ∉ [0b0110011#7, 0b0010011#7, 0b0000011#7, 0b1100111#7, 0b0100011#7, 0b1100011#7,
      0b0110111#7, 0b0010111#7, 0b1101111#7] := by decide

theorem test_witness_DivisionIdentity :
    (3#5 : Reg) ≠ 0#5 ∧ (withOperands 0xFFFFFFF9#32 2#32).readReg 2#5 ≠ 0#32 := by decide

theorem test_witness_RegisterImmediateResults : (0x004#12).getLsbD 10 = false ∧ (0x404#12).getLsbD 10 = true := by decide

theorem test_witness_JumpResults : (0x1FFFFC#21).getLsbD 0 = false ∧ (0#21).getLsbD 0 = false := by decide

theorem test_witness_BranchResults : (0x1FF8#13).getLsbD 0 = false ∧ (0x1000#13).getLsbD 0 = false := by decide

theorem test_witness_StoreResults : (withOperands 0xFFE#32 5#32).params.legal = true := by decide

theorem test_witness_SystemWordsAreNops :
    (0x00002073#32).extractLsb' 0 7 ∈ [0b0001111#7, 0b1110011#7] := by decide

theorem test_witness_UnallocatedWordsAreNops :
    isLrRest 0x4143#25 = false ∧ isScRest 0x4143#25 = false ∧ isOtherWord 0xFFFFFFFF#32 = true
      ∧ (0x0000A00A#32).extractLsb' 0 2 ≠ 0b11#2 := by decide

/-- RecordBoundsTheEffect, UnwrittenReadsAreReported, EvenPcKept: an ADD at an even pc; its record is no store, no
branch and transfers no control, and x4 is not its rd. -/
theorem test_witness_exec_answers_next :
    (Instr.add 3#5 1#5 2#5).wf = true ∧ (State.reset).pcF.getLsbD 0 = false
      ∧ (nextOf (exec (.add 3#5 1#5 2#5) State.reset)).isSome = true
      ∧ (decodeRecord (encode (.add 3#5 1#5 2#5))).isStore = false
      ∧ (decodeRecord (encode (.add 3#5 1#5 2#5))).isBranch = false
      ∧ (decodeRecord (encode (.add 3#5 1#5 2#5))).isCf = false
      ∧ (4#5 : Reg) ≠ (decodeRecord (encode (.add 3#5 1#5 2#5))).rd
      ∧ (decodeRecord (encode (.sw 3#5 1#5 2#12))).producer = false := by decide

theorem test_witness_MemoryWriteSetsItsBytesOnly :
    Params.vectors.legal = true ∧ Memory.wf Params.vectors.memSize sharedMem = true := by decide

theorem test_witness_RegisterZeroIsHardwired :
    (nextOf (cycle State.reset)).isSome = true ∧ State.reset.memwb.inst.rd = 0#5 := by decide

theorem test_witness_StepRunsTheDecodedInstruction :
    let s := State.reset.withFetchWord 32 0x002081B3
    s.params.legal = true ∧ s.inbox = [] ∧ s.pace = .instruction ∧ s.irqActive = false ∧ s.quiet = true
      ∧ decodeBytes [readByte s.flush.params s.flush.mem s.flush.pcF, readByte s.flush.params s.flush.mem (s.flush.pcF + 1#32),
          readByte s.flush.params s.flush.mem (s.flush.pcF + 2#32), readByte s.flush.params s.flush.mem (s.flush.pcF + 3#32)]
        = .ok (.add 3#5 1#5 2#5, []) := by decide

theorem test_witness_StepTakesTheInterrupt :
    let s := countdownState 2
    s.params.legal = true ∧ s.inbox = [] ∧ s.pace = .instruction ∧ s.irqActive = true := by decide

/-- The four ways a step is refused. -/
theorem test_witness_StepRefusesExactly :
    (nextOf (step (State.reset.withFetchWord 32 0x0000B003)) = none)
      ∧ (nextOf (step { fetched 0x0000B003#32 0#32 with pace := .cycle }) = none)
      ∧ (nextOf (step { fetched 0x0000B003#32 0#32 with inbox := [.clock] }) = none)
      ∧ (nextOf (step { State.reset with inbox := [.loadProgram 3 []] }) = none)
      ∧ (nextOf (step { State.reset with inbox := [.loadProgram 4 (List.replicate 17 0#8)] }) = none) := by decide

theorem test_witness_StepFaultsOnIllegalParametersOnly :
    step (State.initial { Params.vectors with irqDrain := 0 }) = .fault .illegalParameters := by rfl

/-- A state with a program word in IF/ID meets the invariant, and its step at the cycle level goes on. -/
theorem test_witness_StepKeepsInvariant :
    ({ fetched 0x00500093#32 0x001080B3#32 with pace := .cycle } : State).Inv
      ∧ (nextOf (step { fetched 0x00500093#32 0x001080B3#32 with pace := .cycle })).isSome = true := by
  refine ⟨⟨by decide, ⟨by decide, by decide, by decide⟩, by unfold State.UnwrittenZero; decide, ?_⟩, by decide⟩
  constructor <;> decide

theorem test_witness_InstructionLevelStaysQuiet :
    (nextOf (runInstruction (fetched 0x00500093#32 0x001080B3#32))).isSome = true := by decide

theorem pipeOk_reset : State.reset.PipeOk := by constructor <;> decide

theorem pipeOk_fetched : (fetched 0x00500093#32 0x001080B3#32).PipeOk := by constructor <;> decide

/-- The three clauses: a cycle that issues the reset NOP, one that issues a word, one that is refused. -/
theorem test_witness_CycleRefinesInterpreter :
    (State.reset.PipeOk ∧ State.reset.irqActive = false ∧ State.reset.issuesProgramWord = false
      ∧ (nextOf (cycle State.reset)).isSome = true)
    ∧ ((fetched 0x00500093#32 0x001080B3#32).PipeOk ∧ (fetched 0x00500093#32 0x001080B3#32).irqActive = false
      ∧ (fetched 0x00500093#32 0x001080B3#32).issuesProgramWord = true
      ∧ (fetched 0x00500093#32 0x001080B3#32).fetchCoherent = true
      ∧ (nextOf (cycle (fetched 0x00500093#32 0x001080B3#32))).isSome = true)
    ∧ ((fetched 0x0000B003#32 0#32).PipeOk ∧ (fetched 0x0000B003#32 0#32).irqActive = false
      ∧ (fetched 0x0000B003#32 0#32).fetchCoherent = true
      ∧ refusalOf (cycle (fetched 0x0000B003#32 0#32)) = some (.reservedEncoding .loadFunct3)) := by
  refine ⟨⟨pipeOk_reset, by decide⟩, ⟨pipeOk_fetched, by decide⟩, ?_, by decide⟩
  constructor <;> decide

theorem test_witness_PipelineRunRefinesInterpreterRun :
    CoherentFor 1 (fetched 0x00500093#32 0x001080B3#32)
      ∧ (nextOf (cycles 1 (fetched 0x00500093#32 0x001080B3#32))).isSome = true :=
  ⟨⟨fun _ => by decide, fun _ _ => trivial⟩, by decide⟩

theorem test_witness_PredictorNeverChangesResults :
    (nextOf (runInstruction (State.reset.withFetchWord 32 0x00000863))).isSome = true
      ∧ refusalOf (runInstruction (State.reset.withFetchWord 32 0x0000B003))
          = some (.reservedEncoding .loadFunct3) := by decide

/-- Each source but the unresolved one. -/
theorem test_witness_OperandForwarding :
    operandSource forwardingState 0#5 = .zero ∧ operandSource forwardingState 1#5 = .execute
      ∧ operandSource forwardingState 2#5 = .regFile
      ∧ operandSource { State.reset with exmem := { inst := decodeRecord 0x00500093#32, pc := 0#32, alu := 5#32, b := 0#32 } } 1#5
        = .memory
      ∧ operandSource { State.reset with memwb := { inst := decodeRecord 0x00500093#32, pc := 0#32, alu := 5#32, mdata := 0#32 } } 1#5
        = .writeBack := by decide

theorem test_witness_HazardStallLastsOneCycle :
    hazardState.irqActive = false ∧ squashes hazardState.idex = false
      ∧ hasRs1 (decodeRecord hazardState.ifid.word).fmt = true
      ∧ operandSource hazardState (decodeRecord hazardState.ifid.word).rs1 = .unresolved := by decide

theorem test_witness_MispredictionRecovery :
    (mispredictedState.irqActive = false ∧ mispredictedState.idex.inst.isCf = true
      ∧ mispredictedState.idex.inst.alu mispredictedState.idex.a mispredictedState.idex.b mispredictedState.idex.pc
        ≠ mispredictedState.idex.pred)
    ∧ (let s := { mispredictedState with idex := executing 0x00000863#32 0xFF0#32 0x1000#32 0#32 0#32 }
      s.idex.irqj = false ∧ s.idex.inst.alu s.idex.a s.idex.b s.idex.pc = s.idex.pred ∧ s.hazard = false) := by decide

/-- A JAL, a JALR and an ADDI, each as Fetch reads it from 0; a fetch at `npc_f`, and one at a redirect target. -/
theorem test_witness_JumpPredictions :
    (decodeOut State.reset).stall = false ∧ (nextOf (cycle State.reset)).map (fun s => s.ifid.pc) = some 0#32
      ∧ squashes mispredictedState.idex = true ∧ (nextOf (cycle mispredictedState)).isSome = true ∧
    [0x0080006F#32, 0x00008067#32, 0x00500093#32].all (fun w =>
      let s := { fetched w 0#32 with ifid := fetchAt (fetched w 0#32) (signals (fetched w 0#32)) 0#32 }
      decide (s.decodeCase = .issue) && (nextOf (cycle s)).isSome) = true := by decide

theorem test_witness_StagesTransferAndWriteBack :
    (nextOf (cycle hazardState)).isSome = true ∧ hazardState.decodeCase = .hazard
      ∧ (nextOf (cycle mispredictedState)).isSome = true ∧ mispredictedState.decodeCase = .squash
      ∧ (nextOf (cycle (countdownState 2))).isSome = true ∧ (countdownState 2).irqActive = true
      ∧ squashes (countdownState 2).idex = false
      ∧ (nextOf (cycle State.reset)).isSome = true ∧ State.reset.decodeCase = .issue
      ∧ State.reset.exmem.inst.isLoad = false
      ∧ ([0b000#3, 0b001#3, 0b010#3, 0b100#3, 0b101#3].all (fun f3 =>
          let s := { State.reset with exmem := { inst := decodeRecord (wordI 0#12 0#5 f3 1#5 0b0000011#7), pc := 0#32,
                                                 alu := 0x200#32, b := 0#32 } }
          (nextOf (cycle s)).isSome && s.exmem.inst.isLoad && s.exmem.inst.funct3 == f3)) = true := by decide

theorem test_witness_RetirementLatency : (nextOf (cycles 3 State.reset)).isSome = true := by decide

/-- Each width of a store in Memory, at the last byte of memory, and a cycle with none. -/
theorem test_witness_FetchReadsThisCyclesMemory :
    ([0b000#3, 0b001#3, 0b010#3].all (fun f3 =>
        let s := { State.reset with exmem := { inst := decodeRecord (wordS 0#12 2#5 1#5 f3 0b0100011#7), pc := 0#32,
                                               alu := 0xFFF#32, b := 0x11223344#32 } }
        (nextOf (cycle s)).isSome && s.params.legal && s.exmem.inst.isStore && s.exmem.inst.funct3 == f3)) = true
      ∧ (nextOf (cycle State.reset)).isSome = true ∧ State.reset.exmem.inst.isStore = false ∧
    (decodeOut hazardState).stall = true ∧ squashes hazardState.idex = false
      ∧ (decodeOut State.reset).stall = false ∧ squashes mispredictedState.idex = true := by decide

theorem test_witness_PredictorUpdate :
    (nextOf (cycle mispredictedState)).isSome = true ∧ mispredictedState.idex.inst.isBranch = true
      ∧ (nextOf (cycle hazardState)).isSome = true ∧ hazardState.idex.inst.isBranch = false := by decide

theorem test_witness_Progress : State.reset.PipeOk := pipeOk_reset

/-- The self-jump at 0 in IF/ID. -/
theorem test_witness_EndOfRunPersists :
    let s := { fetched 0x0000006F#32 0#32 with npcF := 0#32, ifid := { word := 0x0000006F#32, pc := 0#32, pred := 0#32 } }
    s.ended 0#32 = true ∧ s.npcF = 0#32 ∧ s.irqActive = false
      ∧ readWord s.params s.mem 0#32 = 0x0000006F#32 := by decide

/-- Delivered with no countdown running and with one running; dropped for want of the enable and for the flag. -/
theorem test_witness_InterruptDelivery :
    (let s := State.reset.setMmio 4 1#8
     s.params.legal = true ∧ s.mmio s.params.kIrqEn ≠ 0#8 ∧ s.blockIrq = false ∧ s.irqActive = false)
    ∧ (let s := ((countdownState 2).setMmio 4 1#8).setMmio 5 1#8
       s.mmio s.params.kIrqEn ≠ 0#8 ∧ s.mmio s.params.kIrqHandled = 1#8 ∧ s.irqActive = true)
    ∧ State.reset.mmio State.reset.params.kIrqEn = 0#8
    ∧ (countdownState 2).blockIrq = true ∧ (countdownState 2).mmio (countdownState 2).params.kIrqHandled ≠ 1#8 := by
  decide

theorem test_witness_AtMostOneEventDelivered :
    ((State.reset.event (.keypress 1#8)).bind (fun s1 => s1.event .timerEvent)).isSome = true := by decide

theorem pipeOk_countdown (n : Nat) (h1 : 1 ≤ n) (h3 : n ≤ 3) : (countdownState n).PipeOk := by
  have h : n = 1 ∨ n = 2 ∨ n = 3 := by omega
  rcases h with rfl | rfl | rfl <;> constructor <;> decide

/-- The last cycle, and one before it. -/
theorem test_witness_CountdownCycle :
    ((countdownState 1).PipeOk ∧ (countdownState 1).irqActive = true ∧ (countdownState 1).irqCnt = 1)
    ∧ ((countdownState 3).PipeOk ∧ (countdownState 3).irqActive = true ∧ 2 ≤ (countdownState 3).irqCnt) :=
  ⟨⟨pipeOk_countdown 1 (by decide) (by decide), by decide⟩, ⟨pipeOk_countdown 3 (by decide) (by decide), by decide⟩⟩

theorem test_witness_InterruptEntryAfterDrain : (countdownState 3).PipeOk ∧ (countdownState 3).irqActive = true :=
  ⟨pipeOk_countdown 3 (by decide) (by decide), by decide⟩

theorem test_witness_ReturnAddressIsTheNextInstruction :
    ((countdownState 3).PipeOk ∧ (countdownState 3).irqActive = true)
    ∧ (State.reset.PipeOk ∧ State.reset.irqActive = false) :=
  ⟨⟨pipeOk_countdown 3 (by decide) (by decide), by decide⟩, pipeOk_reset, by decide⟩

theorem test_witness_ReturnFromInterrupt :
    (countdownState 1).params.irqLink ≠ 0#5 ∧ (countdownState 1).retAddr.getLsbD 0 = false := by decide

theorem test_witness_TimerTickAndUartDrain :
    State.reset.params.legal = true ∧ State.reset.mmio State.reset.params.kDataReady = 0#8
      ∧ (State.reset.setMmio 8 1#8).mmio State.reset.params.kDataReady ≠ 0#8 := by decide

theorem test_witness_HostActionFrame :
    [HostAction.keypress 0#8, .uartKeypress 0#8, .timerEvent, .timerTick, .uartDrain, .start, .stop].all (fun a =>
        (a.touches State.reset.params).isSome && (nextOf (hostAction a State.reset)).isSome) = true
      ∧ [HostAction.clock, .reset, .loadProgram 4 []].all (fun a => (nextOf (hostAction a State.reset)).isSome) = true := by
  decide

/-- A running clock: a cycle that goes on and one that is refused. -/
theorem test_witness_ClockControls :
    (let s := { fetched 0x00500093#32 0x001080B3#32 with pace := .cycle }
     s.params.legal = true ∧ s.inbox = [] ∧ s.pace = .cycle ∧ (nextOf (cycle s)).isSome = true)
    ∧ (let s := { fetched 0x0000B003#32 0#32 with pace := .cycle }
       s.params.legal = true ∧ s.inbox = [] ∧ s.pace = .cycle
         ∧ refusalOf (cycle s) = some (.reservedEncoding .loadFunct3)) := by decide

theorem test_witness_LoadProgram :
    ({ State.reset.params with memLog := 4 } : Params).legal = true ∧ [0x13#8].length ≤ 2 ^ 4
      ∧ 2 ^ 4 < (List.replicate 17 0#8).length := by decide

theorem test_witness_FirstInstructionAfterReset :
    (nextOf (cycles 2 State.reset)).isSome = true ∧ (nextOf (cycles 3 State.reset)).isSome = true
      ∧ (nextOf (cycles 4 State.reset)).isSome = true := by decide

end Sys2Proof.Tests
end

/-! SUPPORT. What one instruction and one step of the instruction level can do (one lemma each), and that both leave
nothing in flight. -/

namespace Sys2Proof.Machine

/-! ## What an instruction can do -/

/-- From `s` to `t` by one of the shapes of Machine/Forms.lean, JALR noting the register it reads before it jumps. -/
inductive ExecForm (s : State) : State → Prop where
  | register (f : Word → Word → Word) (rd rs1 rs2 : Reg) : ExecForm s (s.opRegister f rd rs1 rs2)
  | immediate (f : Word → Word → Word) (rd rs1 : Reg) (imm : Word) : ExecForm s (s.opImmediate f rd rs1 imm)
  | upper (rd : Reg) (v : Word) : ExecForm s (s.opUpper rd v)
  | jump (rd : Reg) (target : Word) : ExecForm s (s.opJump rd target)
  | jumpRegister (rd rs1 : Reg) (target : Word) : ExecForm s ((s.noteRead rs1).opJump rd target)
  | branch (cond : Word → Word → Bool) (rs1 rs2 : Reg) (off : BitVec 13) : ExecForm s (s.opBranch cond rs1 rs2 off)
  | load (f3 : BitVec 3) (rd rs1 : Reg) (imm : BitVec 12) : ExecForm s (s.opLoad f3 rd rs1 imm)
  | store (f3 : BitVec 3) (rs2 rs1 : Reg) (imm : BitVec 12) : ExecForm s (s.opStore f3 rs2 rs1 imm)
  | nop : ExecForm s s.opNop

/-- Every instruction answers a next state, of one of the shared shapes. -/
theorem exec_form (i : Instr) (s : State) : ∃ t, exec i s = .next t ∧ ExecForm s t := by
  cases i with
  | add | sub | sll | slt | sltu | xor | srl | sra | or | and
  | mul | mulh | mulhsu | mulhu | div | divu | rem | remu => exact ⟨_, rfl, .register ..⟩
  | addi | slti | sltiu | xori | ori | andi | slli | srli | srai => exact ⟨_, rfl, .immediate ..⟩
  | lui | auipc => exact ⟨_, rfl, .upper ..⟩
  | jal => exact ⟨_, rfl, .jump ..⟩
  | jalr => exact ⟨_, rfl, .jumpRegister ..⟩
  | beq | bne | blt | bge | bltu | bgeu => exact ⟨_, rfl, .branch ..⟩
  | lb | lh | lw | lbu | lhu => exact ⟨_, rfl, .load ..⟩
  | sb | sh | sw => exact ⟨_, rfl, .store ..⟩
  | fence | fenceI | ecall | ebreak | csrrw | csrrs | csrrc | csrrwi | csrrsi | csrrci | mret | sret | wfi
  | sfenceVma | lrW | scW | amo | loadFp | storeFp | opFp | fmadd | fmsub | fnmsub | fnmadd | op32 | opImm32
  | custom0 | custom1 | custom2 | custom3 | anyOther => exact ⟨_, rfl, .nop⟩

theorem execForm_of_exec {i : Instr} {s t : State} (h : exec i s = .next t) : ExecForm s t := by
  obtain ⟨u, hu, form⟩ := exec_form i s
  obtain rfl : u = t := by simpa [hu] using h
  exact form

/-- No shape changes anything but the registers, the fetch registers, the predictor and memory. -/
theorem ExecForm.controlKept {s t : State} (h : ExecForm s t) : ControlKept s t := by
  cases h with
  | register f rd rs1 rs2 => exact (s.opRegister_spec f rd rs1 rs2).control
  | immediate f rd rs1 imm => exact (s.opImmediate_spec f rd rs1 imm).control
  | upper rd v => exact (s.opUpper_spec rd v).control
  | jump rd target => exact (s.opJump_spec rd target).control
  | jumpRegister rd rs1 target => constructor <;> simp [State.opJump]
  | branch cond rs1 rs2 off => exact (s.opBranch_spec cond rs1 rs2 off).control
  | load f3 rd rs1 imm => exact (s.opLoad_spec f3 rd rs1 imm).control
  | store f3 rs2 rs1 imm => exact (s.opStore_spec f3 rs2 rs1 imm).2.2.2.2
  | nop => exact s.opNop_spec.control

/-- Every shape ends by restarting Fetch at its PC. -/
theorem ExecForm.setPc_pcF {s t : State} (h : ExecForm s t) : t.setPc t.pcF = t := by
  cases h <;> rfl

/-! ## What a step of the instruction level can do -/

/-- A step of the instruction level goes on exactly by the interrupt entry or by the instruction at the PC. -/
theorem runInstruction_next_iff (s t : State) :
    runInstruction s = .next t ↔
      (s.flush.irqActive = true ∧ t = s.flush.takeInterrupt)
      ∨ (s.flush.irqActive = false ∧ ∃ i, decode s.flush.fetchWord = .ok i ∧ exec i s.flush = .next t) := by
  cases ha : s.flush.irqActive with
  | true => simp [runInstruction, ha, eq_comm]
  | false => cases hd : decode s.flush.fetchWord <;> simp [runInstruction, ha, hd]

/-! ## Nothing in flight -/

theorem State.quiet_iff (s : State) :
    s.quiet = true ↔ s.npcF = s.pcF ∧ s.ifid = IfId.restart s.pcF ∧ s.idex = IdEx.empty ∧ s.exmem = ExMem.empty
      ∧ s.memwb = MemWb.empty := by
  simp only [State.quiet, Bool.and_eq_true, decide_eq_true_eq, and_assoc]

/-- From a restarted Fetch, quiet means that the later stages are empty. -/
theorem State.quiet_setPc_iff (s : State) (pc : Word) :
    (s.setPc pc).quiet = true ↔ s.idex = IdEx.empty ∧ s.exmem = ExMem.empty ∧ s.memwb = MemWb.empty := by
  simp [State.quiet_iff]

theorem ExecForm.quiet {s t : State} (h : ExecForm s t) (hs : s.quiet = true) : t.quiet = true := by
  obtain ⟨-, -, hidex, hexmem, hmemwb⟩ := s.quiet_iff.1 hs
  rw [← h.setPc_pcF, State.quiet_setPc_iff]
  exact ⟨h.controlKept.idex.trans hidex, h.controlKept.exmem.trans hexmem, h.controlKept.memwb.trans hmemwb⟩

theorem State.takeInterrupt_quiet {s : State} (hs : s.quiet = true) : s.takeInterrupt.quiet = true := by
  obtain ⟨-, -, hidex, hexmem, hmemwb⟩ := s.quiet_iff.1 hs
  simp [State.quiet_iff, hidex, hexmem, hmemwb]

/-- Settles O32: the flush leaves a quiet state, and so do the interrupt entry and every instruction from one. -/
theorem instructionLevelStaysQuiet : Obligations.InstructionLevelStaysQuiet := by
  intro s t h
  obtain ⟨-, rfl⟩ | ⟨-, i, -, hexec⟩ := (runInstruction_next_iff s t).1 h
  · exact State.takeInterrupt_quiet s.flush_quiet
  · exact (execForm_of_exec hexec).quiet s.flush_quiet

end Sys2Proof.Machine

/-! SUPPORT. What the stage registers hold after a commit (50_pipeline.md R310, R311, R331, R335), and x0 at both
levels (10_state.md R31). -/

namespace Sys2Proof.Machine

/-! ## x0 (10_state.md R31) -/

@[simp] theorem operandValue_zero (s : State) : operandValue s 0#5 = 0#32 := rfl

/-- The host's snapshot lists the registers as they read, x0 first. -/
theorem State.snapshot_getElem? (s : State) (r : Reg) : s.snapshot[r.toNat]? = some (s.readReg r) := by
  simp [State.snapshot, List.getElem?_range r.isLt]

/-- A WriteBack into x0 leaves the register file and its marks alone. -/
theorem commit_regs_of_rd_zero (s : State) (d : DecodeOut) (h : s.memwb.inst.rd = 0#5) :
    (commit s d).regs = s.regs ∧ (commit s d).written = s.written := by
  have hen : (signals s).wbEn = false := by simp [signals, h]
  simp [commit, hen]

/-- Settles O25: no read gives x0 another value, and WriteBack's enable excludes it. -/
theorem registerZeroIsHardwired : Obligations.RegisterZeroIsHardwired := by
  intro s v
  refine ⟨s.readReg_zero, s.writeReg_zero v, operandValue_zero s, s.snapshot_getElem? 0#5, fun t h hrd => ?_⟩
  obtain ⟨-, rfl⟩ := (cycle_next_iff s t).1 h
  exact commit_regs_of_rd_zero s _ hrd

/-! ## Memory's and WriteBack's values (50_pipeline.md R310, R311) -/

theorem signals_mdata_of_load {s : State} (h : s.exmem.inst.isLoad = true) :
    (signals s).mdata = loadValue s.params s.mem s.exmem.inst.funct3 s.exmem.alu := by
  simp [signals, h]

theorem signals_mdata_of_not_load {s : State} (h : s.exmem.inst.isLoad = false) : (signals s).mdata = 0#32 := by
  simp [signals, h]

theorem operandValue_of_writeBack {s : State} {r : Reg} (h : operandSource s r = .writeBack) :
    operandValue s r = (signals s).wbVal := by
  simp [operandValue, h]

/-! ## Decode's case (50_pipeline.md R331) -/

/-- A countdown takes the first two cases, and no other. -/
theorem State.irqActive_iff (s : State) :
    s.irqActive = true ↔ s.decodeCase = .countdown ∨ s.decodeCase = .irqJump := by
  unfold State.decodeCase
  cases s.irqActive with
  | true => by_cases h : s.irqCnt - 1 = 0 <;> simp [h]
  | false => cases squashes s.idex <;> cases s.hazard <;> simp

/-- A hazard stalls only where neither a countdown nor a squash goes before it. -/
theorem State.decodeCase_eq_hazard_iff (s : State) :
    s.decodeCase = .hazard ↔ s.irqActive = false ∧ squashes s.idex = false ∧ s.hazard = true := by
  unfold State.decodeCase
  cases s.irqActive with
  | true => by_cases h : s.irqCnt - 1 = 0 <;> simp [h]
  | false => cases squashes s.idex <;> cases s.hazard <;> simp

theorem decodeOut_idex_of_issue {s : State} (h : s.decodeCase = .issue) : (decodeOut s).idex = s.issue := by
  simp [decodeOut, h]

theorem decodeOut_idex_of_squash_or_hazard {s : State} (h : s.decodeCase = .squash ∨ s.decodeCase = .hazard) :
    (decodeOut s).idex = s.bubble := by
  obtain h | h := h <;> simp [decodeOut, h]

/-! ## Fetch (50_pipeline.md R335) -/

/-- Decode stalls Fetch, with no squash to override it, in a hazard cycle and in a countdown cycle. -/
theorem decodeOut_stall_unsquashed_iff (s : State) :
    ((decodeOut s).stall && !squashes s.idex) = true ↔
      s.decodeCase = .hazard ∨ (s.irqActive = true ∧ squashes s.idex = false) := by
  rw [s.irqActive_iff]
  cases hc : s.decodeCase with
  | countdown | irqJump | squash | issue => simp [decodeOut, hc]
  | hazard =>
    obtain ⟨-, hsq, -⟩ := s.decodeCase_eq_hazard_iff.1 hc
    simp [decodeOut, hc, hsq]

/-- A stalled Fetch that no squash redirects keeps its registers. -/
theorem commit_fetch_of_stalled {s : State} {d : DecodeOut} (h : (d.stall && !squashes s.idex) = true) :
    (commit s d).ifid = s.ifid ∧ (commit s d).pcF = s.pcF ∧ (commit s d).npcF = s.npcF := by
  have hg : (d.stall && !(signals s).squash) = true := h
  simp [fetchOut, currentFetchPc, nextFetchPc, hg]

/-- Any other Fetch reads at the redirect target or at the predicted next PC. -/
theorem commit_fetch_of_not_stalled {s : State} {d : DecodeOut} (h : (d.stall && !squashes s.idex) = false) :
    (commit s d).pcF = (if squashes s.idex then s.idex.inst.alu s.idex.a s.idex.b s.idex.pc else s.npcF)
      ∧ (commit s d).ifid = fetchAt s (signals s) (commit s d).pcF ∧ (commit s d).npcF = (commit s d).ifid.pred := by
  have hg : ¬ (d.stall && !(signals s).squash) = true := Bool.eq_false_iff.1 h
  have hifid : (commit s d).ifid = fetchAt s (signals s)
      (if squashes s.idex then s.idex.inst.alu s.idex.a s.idex.b s.idex.pc else s.npcF) := if_neg hg
  have hpc : (commit s d).pcF = (commit s d).ifid.pc := if_neg hg
  have hnpc : (commit s d).npcF = (commit s d).ifid.pred := if_neg hg
  refine ⟨?_, ?_, hnpc⟩ <;> rw [hpc, hifid] <;> rfl

/-- Settles O41: a cycle is the commit of what Decode wrote, and each stage register is one of the commit's fields. -/
theorem stagesTransferAndWriteBack : Obligations.StagesTransferAndWriteBack := by
  intro s t h
  obtain ⟨-, rfl⟩ := (cycle_next_iff s t).1 h
  refine ⟨rfl, rfl, rfl, rfl, rfl, rfl, rfl, signals_mdata_of_not_load, fun hload => ?_, decodeOut_idex_of_issue,
    fun hc => ?_, fun hheld => ?_, fun hheld => ?_, commit_readReg s _, fun _ => operandValue_of_writeBack⟩
  · rw [commit_memwb, signals_mdata_of_load hload]
    refine ⟨?_, ?_, ?_, ?_, ?_⟩ <;> intro hf3 <;> rw [hf3] <;> rfl
  · rw [commit_idex, decodeOut_idex_of_squash_or_hazard hc]
    rfl
  · exact commit_fetch_of_stalled ((decodeOut_stall_unsquashed_iff s).2 hheld)
  · rw [← decodeOut_stall_unsquashed_iff, Bool.not_eq_true] at hheld
    exact commit_fetch_of_not_stalled hheld

end Sys2Proof.Machine

/-! SUPPORT. Memory as the words of 20_memory.md say it: masked addresses, little-endian reads, exact writes, and the
words, half-words and bytes that mix on the same addresses (R71 to R75, R82). -/

namespace Sys2Proof.Machine

/-! ## Masked addresses (20_memory.md R71) -/

theorem Params.memLog_le_of_legal {p : Params} (h : p.legal = true) : p.memLog ≤ 32 := by
  simp [Params.legal] at h
  omega

/-- The spec's mask is the model's remainder, as MEM_SIZE is a power of two. -/
theorem and_memSize_sub_one (p : Params) (n : Nat) : n &&& (p.memSize - 1) = n % p.memSize :=
  Nat.and_two_pow_sub_one_eq_mod n p.memLog

/-- R71's address of byte `i` of an access, for every MEM_SIZE. -/
theorem byteAddress_eq_maskAddr (p : Params) (a : Word) (i : Nat) :
    ((a.toNat + i) % 2 ^ 32) &&& (p.memSize - 1) = maskAddr p (a + BitVec.ofNat 32 i) := by
  rw [and_memSize_sub_one, maskAddr, BitVec.toNat_add, BitVec.toNat_ofNat, Nat.add_mod_mod]

/-- Reducing an address first leaves the addresses of the access' bytes as they are. -/
theorem maskAddr_masked_add (p : Params) (h : p.memLog ≤ 32) (a : Word) (i : Nat) :
    maskAddr p (BitVec.ofNat 32 (a.toNat &&& (p.memSize - 1)) + BitVec.ofNat 32 i)
      = maskAddr p (a + BitVec.ofNat 32 i) := by
  have hd : p.memSize ∣ 2 ^ 32 := Nat.pow_dvd_pow 2 h
  rw [maskAddr_add p h, maskAddr_add p h, and_memSize_sub_one, BitVec.toNat_ofNat, Nat.add_mod,
    Nat.mod_mod_of_dvd _ hd, Nat.mod_mod, ← Nat.add_mod]

/-! ## Reads (20_memory.md R72) -/

theorem toNat_append_byte {n : Nat} (x : BitVec n) (b : Byte) : (x ++ b).toNat = b.toNat + 2 ^ 8 * x.toNat := by
  rw [BitVec.toNat_append, ← Nat.shiftLeft_add_eq_or_of_lt b.isLt, Nat.shiftLeft_eq, Nat.mul_comm, Nat.add_comm]

theorem readHalf_toNat (p : Params) (m : Memory) (a : Word) :
    (readHalf p m a).toNat = (readByte p m a).toNat + 2 ^ 8 * (readByte p m (a + 1#32)).toNat :=
  toNat_append_byte _ _

theorem readWord_toNat (p : Params) (m : Memory) (a : Word) :
    (readWord p m a).toNat = (readByte p m a).toNat + 2 ^ 8 * (readByte p m (a + 1#32)).toNat
      + 2 ^ 16 * (readByte p m (a + 2#32)).toNat + 2 ^ 24 * (readByte p m (a + 3#32)).toNat := by
  rw [readWord, toNat_append_byte, toNat_append_byte, toNat_append_byte]
  omega

/-- Settles O21: each byte of an access is the byte read at its own masked address. -/
theorem memoryReadIsLittleEndian : Obligations.MemoryReadIsLittleEndian := by
  intro p m a M
  have hM : ∀ i, M i = (readByte p m (a + BitVec.ofNat 32 i)).toNat := fun i =>
    congrArg (fun k => (sparseGet 0#8 m k).toNat) (byteAddress_eq_maskAddr p a i)
  have hM0 : M 0 = (readByte p m a).toNat := by rw [hM, BitVec.add_zero]
  rw [hM0, hM 1, hM 2, hM 3]
  exact ⟨rfl, readHalf_toNat p m a, readWord_toNat p m a⟩

/-! ## Writes (20_memory.md R73) -/

theorem sparseGet_writeByte_ne (p : Params) (m : Memory) (a : Word) (v : Byte) {k : Nat} (h : k ≠ maskAddr p a) :
    sparseGet 0#8 (writeByte p m a v) k = sparseGet 0#8 m k :=
  sparseGet_set_ne 0#8 m (maskAddr p a) k v h

/-- A store changes no cell but those of its bytes, whether or not an address reaches the cell. -/
theorem sparseGet_storeValue_ne (p : Params) (m : Memory) (f3 : BitVec 3) (n : Nat)
    (hn : (f3, n) ∈ [(0#3, 1), (1#3, 2), (2#3, 4)]) (a v : Word) {k : Nat}
    (hk : ∀ i < n, k ≠ maskAddr p (a + BitVec.ofNat 32 i)) :
    sparseGet 0#8 (storeValue p m f3 a v) k = sparseGet 0#8 m k := by
  have h0 : 0 < n → k ≠ maskAddr p a := fun h => by simpa using hk 0 h
  simp only [List.mem_cons, Prod.mk.injEq, List.not_mem_nil, or_false] at hn
  rcases hn with ⟨rfl, rfl⟩ | ⟨rfl, rfl⟩ | ⟨rfl, rfl⟩
  · have hw : storeValue p m 0#3 a v = writeByte p m a (v.extractLsb' 0 8) := rfl
    rw [hw, sparseGet_writeByte_ne p _ _ _ (h0 (by decide))]
  · have hw : storeValue p m 1#3 a v = writeHalf p m a (v.extractLsb' 0 16) := rfl
    rw [hw, writeHalf, sparseGet_writeByte_ne p _ _ _ (hk 1 (by decide)),
      sparseGet_writeByte_ne p _ _ _ (h0 (by decide))]
  · have hw : storeValue p m 2#3 a v = writeWord p m a v := rfl
    rw [hw, writeWord, sparseGet_writeByte_ne p _ _ _ (hk 3 (by decide)),
      sparseGet_writeByte_ne p _ _ _ (hk 2 (by decide)), sparseGet_writeByte_ne p _ _ _ (hk 1 (by decide)),
      sparseGet_writeByte_ne p _ _ _ (h0 (by decide))]

/-- The three writes of R73 are the stores' writes, with the store's funct3 by the width. -/
theorem write_eq_storeValue (p : Params) (m : Memory) (a v : Word) {e : Nat × Memory}
    (he : e ∈ [(1, writeByte p m a (v.extractLsb' 0 8)), (2, writeHalf p m a (v.extractLsb' 0 16)),
      (4, writeWord p m a v)]) :
    ∃ f3, (f3, e.1) ∈ [(0#3, 1), (1#3, 2), (2#3, 4)] ∧ e.2 = storeValue p m f3 a v := by
  simp only [List.mem_cons, List.not_mem_nil, or_false] at he
  rcases he with rfl | rfl | rfl
  · exact ⟨0#3, by simp, rfl⟩
  · exact ⟨1#3, by simp, rfl⟩
  · exact ⟨2#3, by simp, rfl⟩

/-- Settles O22: the three writes are the stores' writes, whose bytes, frame and canonical form are known. -/
theorem memoryWriteSetsItsBytesOnly : Obligations.MemoryWriteSetsItsBytesOnly := by
  intro p m a v hp address e he
  obtain ⟨f3, hn, hstore⟩ := write_eq_storeValue p m a v he
  have haddress : ∀ i, address i = maskAddr p (a + BitVec.ofNat 32 i) := byteAddress_eq_maskAddr p a
  simp only [haddress, hstore]
  exact ⟨fun i hi => readByte_storeValue p hp m f3 e.1 hn a v hi,
    fun k hk => sparseGet_storeValue_ne p m f3 e.1 hn a v hk, storeValue_wf p m f3 a v⟩

/-! ## Mixed widths and wraparound (20_memory.md R75, R82) -/

/-- The bytes of a stored word, least significant first. -/
theorem readByte_writeWord (p : Params) (h : p.legal = true) (m : Memory) (a v : Word) {i : Nat} (hi : i < 4) :
    readByte p (writeWord p m a v) (a + BitVec.ofNat 32 i) = v.extractLsb' (8 * i) 8 :=
  readByte_storeValue p h m 2#3 4 (by decide) a v hi

/-- Settles O23: every read is one of the stored word's bytes, or two of them. -/
theorem mixedWidthAccess : Obligations.MixedWidthAccess := by
  intro p m a v b hp m'
  have hbyte : ∀ i < 4, readByte p m' (a + BitVec.ofNat 32 i) = (0x11223344#32).extractLsb' (8 * i) 8 :=
    fun i hi => readByte_writeWord p hp m a _ hi
  have h0 : readByte p m' a = 0x44#8 := by simpa using hbyte 0 (by decide)
  have h1 : readByte p m' (a + 1#32) = 0x33#8 := hbyte 1 (by decide)
  have h2 : readByte p m' (a + 2#32) = 0x22#8 := hbyte 2 (by decide)
  have h3 : readByte p m' (a + 2#32 + 1#32) = 0x11#8 := by
    rw [BitVec.add_assoc]
    exact hbyte 3 (by decide)
  refine ⟨h0, h1, by rw [readHalf, h1, h0]; rfl, by rw [readHalf, h3, h2]; rfl, fun i hi j hj => ?_⟩
  rw [readByte_writeByte]
  by_cases hij : i = j
  · simp [hij]
  · have hne := fun he => hij (maskAddr_add_inj p hp a hj hi he).symm
    rw [if_neg hne, if_neg hij, readByte_writeWord p hp m a v hj]

/-- A word read depends on the masked addresses of its bytes only. -/
theorem readWord_congr (p : Params) (m : Memory) {a b : Word}
    (h : ∀ i, maskAddr p (a + BitVec.ofNat 32 i) = maskAddr p (b + BitVec.ofNat 32 i)) :
    readWord p m a = readWord p m b := by
  have hbyte : ∀ i, readByte p m (a + BitVec.ofNat 32 i) = readByte p m (b + BitVec.ofNat 32 i) :=
    fun i => congrArg (sparseGet 0#8 m) (h i)
  have h0 : readByte p m a = readByte p m b := by simpa using hbyte 0
  rw [readWord, readWord, h0, hbyte 1, hbyte 2, hbyte 3]

/-- A word is its four bytes. -/
theorem extractLsb'_bytes_append (v : Word) :
    v.extractLsb' 24 8 ++ v.extractLsb' 16 8 ++ v.extractLsb' 8 8 ++ v.extractLsb' 0 8 = v := by
  rw [BitVec.extractLsb'_append_extractLsb'_eq_extractLsb', BitVec.extractLsb'_append_extractLsb'_eq_extractLsb',
    BitVec.extractLsb'_append_extractLsb'_eq_extractLsb', BitVec.extractLsb'_eq_self] <;> rfl

/-- A stored word is read back at its own address. -/
theorem readWord_writeWord (p : Params) (h : p.legal = true) (m : Memory) (a v : Word) :
    readWord p (writeWord p m a v) a = v := by
  have hbyte := fun (i : Nat) (hi : i < 4) => readByte_writeWord p h m a v hi
  have h0 : readByte p (writeWord p m a v) a = v.extractLsb' 0 8 := by simpa using hbyte 0 (by decide)
  rw [readWord, h0, hbyte 1 (by decide), hbyte 2 (by decide), hbyte 3 (by decide)]
  exact extractLsb'_bytes_append v

/-- Settles O24: the masked address has the same bytes as the address itself. -/
theorem wordWraparound : Obligations.WordWraparound := by
  intro p m a v hp
  rw [readWord_congr p _ (maskAddr_masked_add p (Params.memLog_le_of_legal hp) a), readWord_writeWord p hp]

end Sys2Proof.Machine

/-! SUPPORT. Words and their records (30_encoding.md R103 to R124): the record of each layout, the reserved cells and
what refuses them, and how the record bounds what an instruction may change. -/

namespace Sys2Proof.Machine

/-! ## The record of each layout of the encoder (30_encoding.md R104, R105) -/

theorem decodeRecord_wordR (f7 : BitVec 7) (rs2 rs1 : Reg) (f3 : BitVec 3) (rd : Reg) {op : BitVec 7}
    (h : formatOf op = .R) :
    decodeRecord (wordR f7 rs2 rs1 f3 rd op) =
      { word := wordR f7 rs2 rs1 f3 rd op, fmt := .R, opcode := op, funct3 := f3, funct7 := f7, rs1 := rs1, rs2 := rs2,
        rd := rd, imm := 0#32 } := by
  simp [decodeRecord, h, hasRs1, hasRs2, hasRd, immediateOf]

theorem decodeRecord_wordI (imm : BitVec 12) (rs1 : Reg) (f3 : BitVec 3) (rd : Reg) {op : BitVec 7}
    (h : formatOf op = .I) :
    decodeRecord (wordI imm rs1 f3 rd op) =
      { word := wordI imm rs1 f3 rd op, fmt := .I, opcode := op, funct3 := f3, funct7 := 0#7, rs1 := rs1, rs2 := 0#5,
        rd := rd, imm := sext12 imm } := by
  simp [decodeRecord, h, hasRs1, hasRs2, hasRd, immediateOf]

theorem decodeRecord_wordS (imm : BitVec 12) (rs2 rs1 : Reg) (f3 : BitVec 3) {op : BitVec 7}
    (h : formatOf op = .S) :
    decodeRecord (wordS imm rs2 rs1 f3 op) =
      { word := wordS imm rs2 rs1 f3 op, fmt := .S, opcode := op, funct3 := f3, funct7 := 0#7, rs1 := rs1, rs2 := rs2,
        rd := 0#5, imm := sext12 imm } := by
  simp [decodeRecord, h, hasRs1, hasRs2, hasRd, immediateOf]

theorem decodeRecord_wordB {off : BitVec 13} (hoff : off.getLsbD 0 = false) (rs2 rs1 : Reg) (f3 : BitVec 3)
    {op : BitVec 7} (h : formatOf op = .B) :
    decodeRecord (wordB off rs2 rs1 f3 op) =
      { word := wordB off rs2 rs1 f3 op, fmt := .B, opcode := op, funct3 := f3, funct7 := 0#7, rs1 := rs1, rs2 := rs2,
        rd := 0#5, imm := sext13 off } := by
  simp [decodeRecord, h, hasRs1, hasRs2, hasRd, immediateOf, immBOf_wordB _ _ _ _ _ hoff]

theorem decodeRecord_wordU (imm20 : BitVec 20) (rd : Reg) {op : BitVec 7} (h : formatOf op = .U) :
    decodeRecord (wordU imm20 rd op) =
      { word := wordU imm20 rd op, fmt := .U, opcode := op, funct3 := 0#3, funct7 := 0#7, rs1 := 0#5, rs2 := 0#5,
        rd := rd, imm := upper20 imm20 } := by
  simp [decodeRecord, h, hasRs1, hasRs2, hasRd, immediateOf]

theorem decodeRecord_wordJ {off : BitVec 21} (hoff : off.getLsbD 0 = false) (rd : Reg) {op : BitVec 7}
    (h : formatOf op = .J) :
    decodeRecord (wordJ off rd op) =
      { word := wordJ off rd op, fmt := .J, opcode := op, funct3 := 0#3, funct7 := 0#7, rs1 := 0#5, rs2 := 0#5,
        rd := rd, imm := sext21 off } := by
  simp [decodeRecord, h, hasRs1, hasRs2, hasRd, immediateOf, immJOf_wordJ _ _ _ hoff]

/-- Settles O3: each layout's record is known, and the boundary words are decoded one by one. -/
theorem recordRoundTrip : Obligations.RecordRoundTrip := by
  refine ⟨fun f7 rs2 rs1 f3 rd => decodeRecord_wordR f7 rs2 rs1 f3 rd rfl, fun op hop imm rs1 f3 rd => ?_,
    fun imm rs2 rs1 f3 => decodeRecord_wordS imm rs2 rs1 f3 rfl,
    fun off rs2 rs1 f3 hoff => decodeRecord_wordB hoff rs2 rs1 f3 rfl, fun op hop imm20 rd => ?_,
    fun off rd hoff => decodeRecord_wordJ hoff rd rfl, by decide⟩
  · have hfmt : ∀ op ∈ [0b0010011#7, 0b0000011#7, 0b1100111#7], formatOf op = .I := by decide
    exact decodeRecord_wordI imm rs1 f3 rd (hfmt op hop)
  · have hfmt : ∀ op ∈ [0b0110111#7, 0b0010111#7], formatOf op = .U := by decide
    exact decodeRecord_wordU imm20 rd (hfmt op hop)

/-! ## The reserved cells of each opcode (30_encoding.md R120) -/

theorem decodeRegister_eq_error_iff (w : Word) (c : Reserved) :
    decodeRegister w = .error c ↔
      (c = .registerFunct7 ∧ funct7Of w ∉ [0b0000000#7, 0b0100000#7, 0b0000001#7])
      ∨ (c = .invertedFunct3 ∧ funct7Of w = 0b0100000#7 ∧ funct3Of w ∉ [0b000#3, 0b101#3]) := by
  by_cases hbase : funct7Of w = 0b0000000#7
  · simp [decodeRegister, hbase]
  by_cases hinv : funct7Of w = 0b0100000#7
  · by_cases h0 : funct3Of w = 0#3
    · simp [decodeRegister, hinv, h0]
    by_cases h5 : funct3Of w = 5#3
    · simp [decodeRegister, hinv, h5]
    simp [decodeRegister, hinv, h0, h5, eq_comm]
  by_cases hmul : funct7Of w = 0b0000001#7
  · simp [decodeRegister, hmul]
  simp [decodeRegister, hbase, hinv, hmul, eq_comm]

theorem funct3_cases (f3 : BitVec 3) :
    f3 = 0#3 ∨ f3 = 1#3 ∨ f3 = 2#3 ∨ f3 = 3#3 ∨ f3 = 4#3 ∨ f3 = 5#3 ∨ f3 = 6#3 ∨ f3 = 7#3 := by
  revert f3
  decide

theorem decodeLoad_eq_error_iff (w : Word) (c : Reserved) :
    decodeLoad w = .error c ↔ c = .loadFunct3 ∧ funct3Of w ∈ [0b011#3, 0b110#3, 0b111#3] := by
  obtain h | h | h | h | h | h | h | h := funct3_cases (funct3Of w) <;> simp [decodeLoad, h, eq_comm]

theorem decodeStore_eq_error_iff (w : Word) (c : Reserved) :
    decodeStore w = .error c ↔
      c = .storeFunct3 ∧ funct3Of w ∈ [0b011#3, 0b100#3, 0b101#3, 0b110#3, 0b111#3] := by
  obtain h | h | h | h | h | h | h | h := funct3_cases (funct3Of w) <;> simp [decodeStore, h, eq_comm]

theorem decodeBranch_eq_error_iff (w : Word) (c : Reserved) :
    decodeBranch w = .error c ↔ c = .branchFunct3 ∧ funct3Of w ∈ [0b010#3, 0b011#3] := by
  obtain h | h | h | h | h | h | h | h := funct3_cases (funct3Of w) <;> simp [decodeBranch, h, eq_comm]

/-- No word of another opcode is reserved. -/
theorem decode_ok_of_other_opcode {w : Word}
    (h : opcodeOf w ∉ [0b0110011#7, 0b0000011#7, 0b0100011#7, 0b1100011#7]) : ∃ i, decode w = .ok i := by
  simp only [List.mem_cons, List.not_mem_nil, or_false, not_or] at h
  obtain ⟨hregister, hload, hstore, hbranch⟩ := h
  simp only [decode, hregister, hload, hstore, hbranch, if_false]
  split_ifs <;> exact ⟨_, rfl⟩

/-- The four opcodes with reserved cells. -/
theorem decode_eq_error_iff (w : Word) (c : Reserved) :
    decode w = .error c ↔
      (opcodeOf w = 0b0110011#7 ∧ decodeRegister w = .error c) ∨ (opcodeOf w = 0b0000011#7 ∧ decodeLoad w = .error c)
      ∨ (opcodeOf w = 0b0100011#7 ∧ decodeStore w = .error c)
      ∨ (opcodeOf w = 0b1100011#7 ∧ decodeBranch w = .error c) := by
  by_cases hop : opcodeOf w ∈ [0b0110011#7, 0b0000011#7, 0b0100011#7, 0b1100011#7]
  · simp only [List.mem_cons, List.not_mem_nil, or_false] at hop
    obtain h | h | h | h := hop <;> simp [decode, h]
  · obtain ⟨i, hi⟩ := decode_ok_of_other_opcode hop
    simp only [List.mem_cons, List.not_mem_nil, or_false, not_or] at hop
    simp [hi, hop]

/-! ## A refused cycle (50_pipeline.md R331, R333) -/

theorem cycle_refused_iff_decode (s : State) (r : Refusal) :
    cycle s = .refused r ↔
      s.decodeCase = .issue ∧ ∃ c, decode s.ifid.word = .error c ∧ r = .reservedEncoding c := by
  simp only [cycle_refused_iff, State.issuesReserved_eq_some, and_assoc, exists_and_left]

/-! ## A squashing cycle (50_pipeline.md R331, R335) -/

theorem State.decodeCase_ne_issue_of_squashes {s : State} (h : squashes s.idex = true) : s.decodeCase ≠ .issue := by
  unfold State.decodeCase
  cases s.irqActive with
  | true => by_cases hcnt : s.irqCnt - 1 = 0 <;> simp [hcnt]
  | false => simp [h]

theorem State.issuesReserved_of_squashes {s : State} (h : squashes s.idex = true) : s.issuesReserved = none := by
  refine Option.eq_none_iff_forall_ne_some.2 fun c hc => ?_
  exact State.decodeCase_ne_issue_of_squashes h ((s.issuesReserved_eq_some c).1 hc).1

/-- A squashing cycle goes on. -/
theorem cycle_of_squashes {s : State} (h : squashes s.idex = true) : cycle s = .next (commit s (decodeOut s)) :=
  (cycle_next_iff s _).2 ⟨State.issuesReserved_of_squashes h, rfl⟩

/-- `s` with another word in IF/ID, fetched from the same address. -/
def State.withWord (s : State) (w : Word) : State := { s with ifid := { s.ifid with word := w } }

/-- The stages behind Decode do not read IF/ID. -/
@[simp] theorem signals_withWord (s : State) (w : Word) : signals (s.withWord w) = signals s := rfl

theorem State.decodeCase_withWord_of_squashes {s : State} (h : squashes s.idex = true) (w : Word) :
    (s.withWord w).decodeCase = s.decodeCase := by
  have h' : squashes (s.withWord w).idex = true := h
  simp only [State.decodeCase, h, h', if_true]
  rfl

/-- Decode issues nothing in a squashing cycle, so it does not use the word. -/
theorem decodeOut_withWord_of_squashes {s : State} (h : squashes s.idex = true) (w : Word) :
    decodeOut (s.withWord w) = decodeOut s := by
  have hcase := State.decodeCase_withWord_of_squashes h w
  cases hc : s.decodeCase with
  | issue => exact absurd hc (State.decodeCase_ne_issue_of_squashes h)
  | countdown | irqJump | squash | hazard =>
    rw [hc] at hcase
    simp only [decodeOut, hcase, hc]
    rfl

theorem State.writeReg_withWord (s : State) (w : Word) (r : Reg) (v : Word) :
    (s.withWord w).writeReg r v = (s.writeReg r v).withWord w := by
  unfold State.writeReg
  split <;> rfl

/-- A squash has Fetch read at its target, so IF/ID's word is not kept (R335). -/
theorem fetchOut_withWord_of_squashes {s : State} (h : squashes s.idex = true) (w : Word) (stall : Bool) :
    fetchOut (s.withWord w) stall = fetchOut s stall := by
  have hsquash : (signals s).squash = true := h
  simp only [fetchOut, signals_withWord, hsquash, Bool.not_true, Bool.and_false]
  rfl

theorem commit_withWord_of_squashes {s : State} (h : squashes s.idex = true) (w : Word) (d : DecodeOut) :
    commit (s.withWord w) d = commit s d := by
  simp only [commit, currentFetchPc, nextFetchPc, fetchOut_withWord_of_squashes h, signals_withWord,
    State.writeReg_withWord]
  cases (signals s).wbEn <;> rfl

/-- A squashing cycle is the same whatever word IF/ID held (R120). -/
theorem cycle_withWord_of_squashes {s : State} (h : squashes s.idex = true) (w : Word) :
    cycle (s.withWord w) = cycle s := by
  have h' : squashes (s.withWord w).idex = true := h
  rw [cycle_of_squashes h, cycle_of_squashes h', decodeOut_withWord_of_squashes h, commit_withWord_of_squashes h]

/-- Settles O4: the cells by opcode, the issued word that alone is refused, and the squash that discards any word. -/
theorem reservedCellsExactly : Obligations.ReservedCellsExactly := by
  refine ⟨fun w => ?_, cycle_refused_iff_decode, fun s w h =>
    ⟨⟨_, cycle_of_squashes h⟩, cycle_withWord_of_squashes h w⟩⟩
  simp [decode_eq_error_iff, decodeRegister_eq_error_iff, decodeLoad_eq_error_iff, decodeStore_eq_error_iff,
    decodeBranch_eq_error_iff, opcodeOf, funct3Of, funct7Of]

/-! ## What an instruction may change -/

section

/-- From `s` to `t` no more changes than an instruction with the record `I` may change (10_state.md section 4,
50_pipeline.md R311, R318, R322). -/
structure ChangesWithin (I : Inst) (s t : State) : Prop where
  control   : ControlKept s t
  regs      : ∀ r, (I.producer = false ∨ r ≠ I.rd) → t.readReg r = s.readReg r ∧ t.unwritten r = s.unwritten r
  memory    : I.isStore = false → MemoryKept s t
  predictor : I.isBranch = false → PredictorKept s t
  pc        : I.isCf = false → t.pcF = s.pcF + 4#32

variable {I : Inst} {s t : State}

theorem WritesReg.kept_of_ne {rd r : Reg} {v : Word} (h : WritesReg s t rd v) (hr : r ≠ rd) :
    t.readReg r = s.readReg r ∧ t.unwritten r = s.unwritten r := by
  refine ⟨?_, by rw [h.2, decide_eq_true hr, Bool.and_true]⟩
  rw [h.1, if_neg hr]
  split
  · next h0 => rw [h0, State.readReg_zero]
  · rfl

/-- A producer that names the register written. -/
theorem WritesOnly.changesWithin {rd : Reg} {v next : Word} (h : WritesOnly s rd v next t) (hprod : I.producer = true)
    (hrd : I.rd = rd) (hnext : I.isCf = false → next = s.pcF + 4#32) : ChangesWithin I s t where
  control := h.control
  regs := by
    rintro r (hr | hr)
    · simp [hprod] at hr
    · exact h.reg.kept_of_ne (hrd ▸ hr)
  memory := fun _ => h.memory
  predictor := fun _ => h.predictor
  pc := fun hcf => h.pc.trans (hnext hcf)

theorem BranchesOnly.changesWithin {taken : Bool} {next : Word} (h : BranchesOnly s taken next t)
    (hbranch : I.isBranch = true) : ChangesWithin I s t where
  control := h.control
  regs := fun r _ => ⟨h.regs.1 r, h.regs.2 r⟩
  memory := fun _ => h.memory
  predictor := fun hb => by simp [hbranch] at hb
  pc := fun hcf => by simp [Inst.isCf, hbranch] at hcf

theorem State.opStore_changesWithin (s : State) (f3 : BitVec 3) (rs2 rs1 : Reg) (imm : BitVec 12)
    (hstore : I.isStore = true) : ChangesWithin I s (s.opStore f3 rs2 rs1 imm) := by
  obtain ⟨-, hpc, hregs, hpred, hcontrol⟩ := s.opStore_spec f3 rs2 rs1 imm
  exact ⟨hcontrol, fun r _ => ⟨hregs.1 r, hregs.2 r⟩, fun hs => by simp [hstore] at hs, fun _ => hpred, fun _ => hpc⟩

/-- What only advances the PC is within every bound. -/
theorem AdvancesOnly.changesWithin (h : AdvancesOnly s t) : ChangesWithin I s t :=
  ⟨h.control, fun r _ => ⟨h.regs.1 r, h.regs.2 r⟩, fun _ => h.memory, fun _ => h.predictor, fun _ => h.pc⟩

/-- The report of an unwritten read is within every bound. -/
theorem ChangesWithin.of_noteRead {r : Reg} (h : ChangesWithin I (s.noteRead r) t) : ChangesWithin I s t where
  control := { h.control with }
  regs := h.regs
  memory := h.memory
  predictor := h.predictor
  pc := h.pc

/-! ## The bound of a word's record (30_encoding.md R103, R105) -/

theorem decodeRecord_isStore {w : Word} (h : opcodeOf w = 0b0100011#7) : (decodeRecord w).isStore = true := by
  simp [Inst.isStore, decodeRecord, formatOf, h]

theorem decodeRecord_isBranch {w : Word} (h : opcodeOf w = 0b1100011#7) : (decodeRecord w).isBranch = true := by
  simp [Inst.isBranch, decodeRecord, formatOf, h]

theorem decodeRecord_isCf {w : Word} (h : isCfOpcode (opcodeOf w) = true) : (decodeRecord w).isCf = true := by
  simp only [isCfOpcode, Bool.or_eq_true, beq_iff_eq] at h
  obtain (h | h) | h := h <;>
    simp [Inst.isCf, Inst.isBranch, Inst.isJal, Inst.isJalr, decodeRecord, formatOf, h]

/-- The record of a word whose format has a destination bounds a write to it. -/
theorem WritesOnly.changesWithin_decodeRecord {w : Word} {op : BitVec 7} {rd : Reg} {v next : Word}
    (h : WritesOnly s rd v next t) (hop : opcodeOf w = op) (hfmt : hasRd (formatOf op) = true) (hrd : rdOf w = rd)
    (hnext : isCfOpcode op = true ∨ next = s.pcF + 4#32) : ChangesWithin (decodeRecord w) s t := by
  subst hop
  refine h.changesWithin hfmt ((if_pos hfmt).trans hrd) fun hcf => hnext.resolve_left fun hop => ?_
  simp [decodeRecord_isCf hop] at hcf

end

/-- Every instruction answers a next state within the bound of its word's record. -/
theorem exec_changesWithin (i : Instr) (s : State) :
    ∃ t, exec i s = .next t ∧ ChangesWithin (decodeRecord (encode i)) s t := by
  cases i with
  | add | sub | sll | slt | sltu | xor | srl | sra | or | and
  | mul | mulh | mulhsu | mulhu | div | divu | rem | remu =>
    exact ⟨_, rfl,
      (s.opRegister_spec ..).changesWithin_decodeRecord (opcodeOf_wordR ..) rfl (rdOf_wordR ..) (.inr rfl)⟩
  | addi | slti | sltiu | xori | ori | andi | slli | srli | srai =>
    exact ⟨_, rfl,
      (s.opImmediate_spec ..).changesWithin_decodeRecord (opcodeOf_wordI ..) rfl (rdOf_wordI ..) (.inr rfl)⟩
  | lui | auipc =>
    exact ⟨_, rfl, (s.opUpper_spec ..).changesWithin_decodeRecord (opcodeOf_wordU ..) rfl (rdOf_wordU ..) (.inr rfl)⟩
  | jal =>
    exact ⟨_, rfl, (s.opJump_spec ..).changesWithin_decodeRecord (opcodeOf_wordJ ..) rfl (rdOf_wordJ ..) (.inl rfl)⟩
  | jalr rd rs1 =>
    exact ⟨_, rfl, (((s.noteRead rs1).opJump_spec ..).changesWithin_decodeRecord (opcodeOf_wordI ..) rfl (rdOf_wordI ..)
      (.inl rfl)).of_noteRead⟩
  | beq | bne | blt | bge | bltu | bgeu =>
    exact ⟨_, rfl, (s.opBranch_spec ..).changesWithin (decodeRecord_isBranch (opcodeOf_wordB ..))⟩
  | lb | lh | lw | lbu | lhu =>
    exact ⟨_, rfl, (s.opLoad_spec ..).changesWithin_decodeRecord (opcodeOf_wordI ..) rfl (rdOf_wordI ..) (.inr rfl)⟩
  | sb | sh | sw => exact ⟨_, rfl, s.opStore_changesWithin _ _ _ _ (decodeRecord_isStore (opcodeOf_wordS ..))⟩
  | fence | fenceI | ecall | ebreak | csrrw | csrrs | csrrc | csrrwi | csrrsi | csrrci | mret | sret | wfi
  | sfenceVma | lrW | scW | amo | loadFp | storeFp | opFp | fmadd | fmsub | fnmsub | fnmadd | op32 | opImm32
  | custom0 | custom1 | custom2 | custom3 | anyOther => exact ⟨_, rfl, s.opNop_spec.changesWithin⟩

/-- Settles O19: every instruction has one of the shapes, and its record the class that allows the shape. -/
theorem recordBoundsTheEffect : Obligations.RecordBoundsTheEffect := by
  intro i s t _ h
  obtain ⟨u, hu, hwithin⟩ := exec_changesWithin i s
  obtain rfl : u = t := by simpa [hu] using h
  exact ⟨hwithin.control, hwithin.regs, hwithin.memory, hwithin.predictor, hwithin.pc⟩

/-! ## The countdown over a flush -/

@[simp] theorem drainCycle_irqActive (s : State) : (drainCycle s).irqActive = s.irqActive := rfl

@[simp] theorem State.flush_irqActive (s : State) : s.flush.irqActive = s.irqActive := by
  simp [State.flush]

/-! ## Refusals -/

theorem exec_ne_refused (i : Instr) (s : State) (r : Refusal) : exec i s ≠ .refused r := by
  obtain ⟨t, ht, -⟩ := exec_form i s
  simp [ht]

theorem exists_cycle_refused_iff (s : State) :
    (∃ r, cycle s = .refused r) ↔ s.decodeCase = .issue ∧ ∃ c, decode s.ifid.word = .error c := by
  simp only [cycle_refused_iff_decode]
  exact ⟨fun ⟨r, hissue, c, hc, _⟩ => ⟨hissue, c, hc⟩, fun ⟨hissue, c, hc⟩ => ⟨_, hissue, c, hc, rfl⟩⟩

/-- The instruction level refuses the reserved word it would run, and no interrupt entry. -/
theorem exists_runInstruction_refused_iff (s : State) :
    (∃ r, runInstruction s = .refused r) ↔ s.irqActive = false ∧ ∃ c, decode s.flush.fetchWord = .error c := by
  cases ha : s.irqActive with
  | true => simp [runInstruction, ha]
  | false => cases hd : decode s.flush.fetchWord <;> simp [runInstruction, ha, hd, exec_ne_refused]

theorem State.exists_load_refused_iff (s : State) (k : Nat) (image : List Byte) :
    (∃ r, s.load k image = .refused r) ↔
      ({ s.params with memLog := k } : Params).legal = false ∨ 2 ^ k < image.length := by
  have hsize : ({ s.params with memLog := k } : Params).memSize = 2 ^ k := rfl
  unfold State.load
  dsimp only
  rw [hsize]
  split_ifs with hlegal hlong
  · simp [hlegal]
  · simp [hlong]
  · simp [hlegal, hlong]

/-- Of the host's actions only the clock and a load can be refused. -/
theorem exists_hostAction_refused_iff (a : HostAction) (s : State) :
    (∃ r, hostAction a s = .refused r) ↔
      (a = .clock ∧ ∃ r, cycle s = .refused r)
      ∨ ∃ k image, a = .loadProgram k image ∧ ∃ r, s.load k image = .refused r := by
  cases a <;> simp [hostAction]

/-- The schedule of host actions is not read by Decode. -/
theorem State.decodeCase_withInbox (s : State) (inbox : List HostAction) :
    State.decodeCase { s with inbox := inbox } = s.decodeCase := rfl

/-- Settles O28: a step is a host action, an instruction, a cycle or nothing, and each has its own refusals. -/
theorem stepRefusesExactly : Obligations.StepRefusesExactly := by
  intro s hlegal
  cases hinbox : s.inbox with
  | cons a rest =>
    rw [step_action hlegal hinbox, exists_hostAction_refused_iff, exists_cycle_refused_iff]
    simp [State.exists_load_refused_iff, State.decodeCase_withInbox, and_assoc]
  | nil =>
    cases hpace : s.pace with
    | instruction =>
      rw [step_instruction hlegal hinbox hpace, exists_runInstruction_refused_iff]
      simp
    | cycle =>
      rw [step_cycle hlegal hinbox hpace, exists_cycle_refused_iff]
      simp
    | halted =>
      rw [step_halted hlegal hinbox hpace]
      simp

end Sys2Proof.Machine

/-! SUPPORT. The integer instructions (40_integer.md): the operations of the ALU in exact arithmetic, and what a word of
each shape means once its decoding and its result are known. -/

namespace Sys2Proof.Machine

/-! ## Operands (30_encoding.md R106, R109, R112) -/

theorem shamt_eq_mod (b : Word) : shamt b = b.toNat % 32 := by
  simp [shamt]

theorem toInt_sext12 (imm : BitVec 12) : (sext12 imm).toInt = imm.toInt :=
  BitVec.toInt_signExtend_of_le (by decide)

/-- The shift amount lies below the bits the sign extension adds. -/
theorem shamt_sext12 (imm : BitVec 12) : shamt (sext12 imm) = imm.toNat % 32 := by
  rw [shamt_eq_mod, sext12, BitVec.toNat_signExtend, BitVec.toNat_setWidth]
  split <;> omega

theorem upper20_eq_ofNat (imm20 : BitVec 20) : upper20 imm20 = BitVec.ofNat 32 (imm20.toNat * 2 ^ 12) := by
  apply BitVec.eq_of_toNat_eq
  rw [upper20, BitVec.toNat_append, BitVec.toNat_ofNat, BitVec.toNat_ofNat, Nat.shiftLeft_eq, Nat.zero_mod,
    Nat.or_zero]
  omega

/-! ## Operations (40_integer.md R142 to R151) -/

theorem aluAdd_eq_ofNat (a b : Word) : aluAdd a b = BitVec.ofNat 32 (a.toNat + b.toNat) := by
  simp [aluAdd, BitVec.ofNat_add]

theorem aluAdd_eq_ofInt (a b : Word) : aluAdd a b = BitVec.ofInt 32 (a.toInt + b.toInt) := by
  simp [aluAdd, BitVec.ofInt_add]

theorem aluSub_eq_ofInt (a b : Word) : aluSub a b = BitVec.ofInt 32 ((a.toNat : Int) - (b.toNat : Int)) := by
  apply BitVec.eq_of_toNat_eq
  rw [aluSub, BitVec.toNat_sub, BitVec.toNat_ofInt]
  omega

theorem aluSll_eq_ofNat (a b : Word) : aluSll a b = BitVec.ofNat 32 (a.toNat * 2 ^ shamt b) := by
  apply BitVec.eq_of_toNat_eq
  simp [aluSll, Nat.shiftLeft_eq]

theorem aluSrl_eq_ofNat (a b : Word) : aluSrl a b = BitVec.ofNat 32 (a.toNat / 2 ^ shamt b) := by
  rw [← Nat.shiftRight_eq_div_pow, ← BitVec.toNat_ushiftRight, BitVec.ofNat_toNat, BitVec.setWidth_eq, aluSrl]

theorem aluSra_eq_ofInt (a b : Word) : aluSra a b = BitVec.ofInt 32 (a.toInt / 2 ^ shamt b) := by
  rw [aluSra, BitVec.sshiftRight, Int.shiftRight_eq_div_pow]
  norm_cast

theorem aluSlt_eq_ite (a b : Word) : aluSlt a b = if a.toInt < b.toInt then 1#32 else 0#32 := by
  simp [aluSlt, boolWord]

theorem aluSltu_eq_ite (a b : Word) : aluSltu a b = if a.toNat < b.toNat then 1#32 else 0#32 := by
  simp [aluSltu, boolWord]

/-! ## What a word of each shape means (30_encoding.md R113, R114) -/

section

variable {s : State} {w : Word} {i : Instr} {f : Word → Word → Word} {rd rs1 rs2 : Reg} {v : Word}

theorem means_of_opRegister (hexec : exec i s = .next (s.opRegister f rd rs1 rs2)) (hdecode : decode w = .ok i)
    (hv : f (s.readReg rs1) (s.readReg rs2) = v) : Means w i s (WritesOnly s rd v (s.pcF + 4#32)) :=
  ⟨hdecode, _, hexec, hv ▸ s.opRegister_spec f rd rs1 rs2⟩

theorem means_of_opImmediate {imm : Word} (hexec : exec i s = .next (s.opImmediate f rd rs1 imm))
    (hdecode : decode w = .ok i) (hv : f (s.readReg rs1) imm = v) : Means w i s (WritesOnly s rd v (s.pcF + 4#32)) :=
  ⟨hdecode, _, hexec, hv ▸ s.opImmediate_spec f rd rs1 imm⟩

theorem means_of_opUpper {u : Word} (hexec : exec i s = .next (s.opUpper rd u)) (hdecode : decode w = .ok i)
    (hv : u = v) : Means w i s (WritesOnly s rd v (s.pcF + 4#32)) :=
  ⟨hdecode, _, hexec, hv ▸ s.opUpper_spec rd u⟩

end

theorem decode_wordR_register (f7 : BitVec 7) (rs2 rs1 : Reg) (f3 : BitVec 3) (rd : Reg) :
    decode (wordR f7 rs2 rs1 f3 rd 0b0110011#7) = decodeRegister (wordR f7 rs2 rs1 f3 rd 0b0110011#7) := by
  simp [decode]

theorem decode_wordI_immediate (imm : BitVec 12) (rs1 : Reg) (f3 : BitVec 3) (rd : Reg) :
    decode (wordI imm rs1 f3 rd 0b0010011#7) = .ok (decodeImmediate (wordI imm rs1 f3 rd 0b0010011#7)) := by
  simp [decode]

/-! ## The instructions -/

/-- Settles O7: each word's funct7 and funct3 select its operation, whose exact value is known. -/
theorem registerRegisterResults : Obligations.RegisterRegisterResults := by
  intro s rd rs1 rs2
  dsimp only
  rw [← shamt_eq_mod]
  refine ⟨means_of_opRegister rfl ?_ (aluAdd_eq_ofNat ..), means_of_opRegister rfl ?_ (aluSub_eq_ofInt ..),
    means_of_opRegister rfl ?_ (aluSll_eq_ofNat ..), means_of_opRegister rfl ?_ (aluSlt_eq_ite ..),
    means_of_opRegister rfl ?_ (aluSltu_eq_ite ..), means_of_opRegister (f := aluXor) rfl ?_ rfl,
    means_of_opRegister rfl ?_ (aluSrl_eq_ofNat ..), means_of_opRegister rfl ?_ (aluSra_eq_ofInt ..),
    means_of_opRegister (f := aluOr) rfl ?_ rfl, means_of_opRegister (f := aluAnd) rfl ?_ rfl⟩
  all_goals simp [decode_wordR_register, decodeRegister]

/-- Settles O11: each word's funct3, and bit 10 of a right shift's immediate, select its operation on the sign-extended
immediate. -/
theorem registerImmediateResults : Obligations.RegisterImmediateResults := by
  intro s rd rs1 imm
  dsimp only
  rw [← toInt_sext12, ← shamt_sext12]
  refine ⟨means_of_opImmediate rfl ?_ (aluAdd_eq_ofInt ..), means_of_opImmediate rfl ?_ (aluSlt_eq_ite ..),
    means_of_opImmediate rfl ?_ (aluSltu_eq_ite ..), means_of_opImmediate (f := aluXor) rfl ?_ rfl,
    means_of_opImmediate (f := aluOr) rfl ?_ rfl, means_of_opImmediate (f := aluAnd) rfl ?_ rfl,
    means_of_opImmediate rfl ?_ (aluSll_eq_ofNat ..),
    fun hlogical => means_of_opImmediate rfl ?srli (aluSrl_eq_ofNat ..),
    fun harithmetic => means_of_opImmediate rfl ?srai (aluSra_eq_ofInt ..)⟩
  case srli => simpa [decode_wordI_immediate, decodeImmediate] using hlogical
  case srai => simpa [decode_wordI_immediate, decodeImmediate] using harithmetic
  all_goals simp [decode_wordI_immediate, decodeImmediate]

/-- Settles O12: both write the upper immediate, AUIPC after adding the unmasked PC. -/
theorem upperImmediateResults : Obligations.UpperImmediateResults := by
  intro s rd imm20
  constructor
  · exact means_of_opUpper rfl (by simp [decode]) (upper20_eq_ofNat imm20)
  · refine means_of_opUpper rfl (by simp [decode]) ?_
    rw [upper20_eq_ofNat, BitVec.ofNat_add, BitVec.ofNat_toNat, BitVec.setWidth_eq]

end Sys2Proof.Machine

/-! SUPPORT. The multiply and divide instructions (41_muldiv.md): the operations of the ALU in exact arithmetic, and the
identity that ties a quotient to its remainder. -/

namespace Sys2Proof.Machine

/-! ## Multiply (R181 to R185) -/

/-- Bits 63..32 are the floor of the product divided by `2^32`, modulo `2^32`. -/
theorem upperHalf_eq_ofInt (n : Int) : upperHalf n = BitVec.ofInt 32 (n / 2 ^ 32) := by
  apply BitVec.eq_of_toNat_eq
  rw [upperHalf, BitVec.extractLsb'_toNat, BitVec.toNat_ofInt, BitVec.toNat_ofInt, Nat.shiftRight_eq_div_pow]
  omega

/-- Settles O8: MUL keeps the product modulo `2^32`, the others its upper half. -/
theorem multiplyResults : Obligations.MultiplyResults := by
  intro s rd rs1 rs2
  dsimp only
  refine ⟨means_of_opRegister (f := aluMul) rfl ?_ rfl, means_of_opRegister rfl ?_ (upperHalf_eq_ofInt _),
    means_of_opRegister rfl ?_ (upperHalf_eq_ofInt _), means_of_opRegister rfl ?_ (upperHalf_eq_ofInt _)⟩
  all_goals simp [decode_wordR_register, decodeRegister]

/-! ## Divide (R186 to R189) -/

/-- Settles O9: the ALU's operations are the rules' cases in their order. -/
theorem divideResults : Obligations.DivideResults := by
  intro s rd rs1 rs2
  refine ⟨means_of_opRegister (f := aluDiv) rfl ?_ rfl, means_of_opRegister (f := aluDivu) rfl ?_ rfl,
    means_of_opRegister (f := aluRem) rfl ?_ rfl, means_of_opRegister (f := aluRemu) rfl ?_ rfl⟩
  all_goals simp [decode_wordR_register, decodeRegister]

/-! ## Quotient and remainder (R181) -/

/-- The special cases of REM agree with the remainder of the division toward zero. -/
theorem toInt_aluRem (a b : Word) : (aluRem a b).toInt = a.toInt.tmod b.toInt := by
  unfold aluRem
  split_ifs with hzero hoverflow
  · simp [hzero]
  · obtain ⟨rfl, rfl⟩ := hoverflow
    decide
  · rw [← Int.tmod_def, ← BitVec.toInt_srem, BitVec.ofInt_toInt]

/-- The special case of REMU agrees with the remainder of the natural numbers. -/
theorem toNat_aluRemu (a b : Word) : (aluRemu a b).toNat = a.toNat % b.toNat := by
  unfold aluRemu
  split_ifs with hzero
  · simp [hzero]
  · rw [← BitVec.umod_def, BitVec.toNat_umod]

theorem aluDiv_mul_add_aluRem (a b : Word) : aluDiv a b * b + aluRem a b = a := by
  unfold aluDiv aluRem
  split_ifs with hzero hoverflow
  · simp [hzero]
  · obtain ⟨rfl, rfl⟩ := hoverflow
    decide
  · calc BitVec.ofInt 32 (a.toInt.tdiv b.toInt) * b + BitVec.ofInt 32 (a.toInt - b.toInt * a.toInt.tdiv b.toInt)
      _ = BitVec.ofInt 32 (a.toInt.tdiv b.toInt * b.toInt + (a.toInt - b.toInt * a.toInt.tdiv b.toInt)) := by
        rw [BitVec.ofInt_add, BitVec.ofInt_mul, BitVec.ofInt_toInt]
      _ = a := by rw [← Int.tmod_def, Int.add_comm, Int.tmod_add_tdiv_mul, BitVec.ofInt_toInt]

theorem aluDivu_mul_add_aluRemu (a b : Word) : aluDivu a b * b + aluRemu a b = a := by
  unfold aluDivu aluRemu
  split_ifs with hzero
  · simp [hzero]
  · calc BitVec.ofNat 32 (a.toNat / b.toNat) * b + BitVec.ofNat 32 (a.toNat % b.toNat)
      _ = BitVec.ofNat 32 (a.toNat / b.toNat * b.toNat + a.toNat % b.toNat) := by
        rw [BitVec.ofNat_add, BitVec.ofNat_mul, BitVec.ofNat_toNat, BitVec.setWidth_eq]
      _ = a := by rw [Nat.div_add_mod', BitVec.ofNat_toNat, BitVec.setWidth_eq]

theorem toInt_neg_of_aluRem_neg {a b : Word} (h : (aluRem a b).toInt < 0) : a.toInt < 0 := by
  rw [toInt_aluRem] at h
  by_contra! ha
  exact absurd (Int.tmod_nonneg b.toInt ha) h.not_ge

theorem toInt_pos_of_aluRem_pos {a b : Word} (h : 0 < (aluRem a b).toInt) : 0 < a.toInt := by
  rw [toInt_aluRem] at h
  by_contra! ha
  have hneg : 0 ≤ (-a.toInt).tmod b.toInt := Int.tmod_nonneg _ (by omega)
  rw [Int.neg_tmod] at hneg
  omega

theorem natAbs_aluRem_lt (a : Word) {b : Word} (hb : b ≠ 0#32) :
    (aluRem a b).toInt.natAbs < b.toInt.natAbs := by
  rw [toInt_aluRem, Int.natAbs_tmod]
  exact Nat.mod_lt _ (Int.natAbs_pos.2 (BitVec.toInt_ne.2 hb))

theorem toNat_aluRemu_lt (a : Word) {b : Word} (hb : b ≠ 0#32) : (aluRemu a b).toNat < b.toNat := by
  rw [toNat_aluRemu]
  exact Nat.mod_lt _ (BitVec.toNat_pos_of_ne_zero hb)

theorem State.readReg_opRegister_dest (s : State) (f : Word → Word → Word) {rd : Reg} (rs1 rs2 : Reg)
    (hrd : rd ≠ 0#5) :
    (s.opRegister f rd rs1 rs2).readReg rd = f (s.readReg rs1) (s.readReg rs2) := by
  rw [(s.opRegister_spec f rd rs1 rs2).reg.1 rd, if_neg hrd, if_pos rfl]

/-- Settles O10: `rd` reads the ALU's quotient and remainder, for which the identity and the bounds hold. -/
theorem divisionIdentity : Obligations.DivisionIdentity := by
  intro s rd rs1 rs2 hrd
  refine ⟨_, _, _, _, rfl, rfl, rfl, rfl, ?_⟩
  simp only [State.readReg_opRegister_dest _ _ _ _ hrd]
  exact ⟨aluDiv_mul_add_aluRem .., aluDivu_mul_add_aluRemu .., toInt_pos_of_aluRem_pos, toInt_neg_of_aluRem_neg,
    fun hb => ⟨natAbs_aluRem_lt _ hb, toNat_aluRemu_lt _ hb⟩⟩

end Sys2Proof.Machine

/-! SUPPORT. The control-transfer instructions (42_control.md): what a word of a jump or a branch means once its target
is known, and where every instruction goes from an even PC. -/

namespace Sys2Proof.Machine

/-! ## Targets (R200 to R202) -/

/-- A sign-extended offset is added modulo `2^32`. -/
theorem add_signExtend_eq_ofInt {n : Nat} (hn : n ≤ 32) (pc : Word) (off : BitVec n) :
    pc + off.signExtend 32 = BitVec.ofInt 32 (pc.toInt + off.toInt) := by
  rw [BitVec.ofInt_add, BitVec.ofInt_toInt, ← BitVec.toInt_signExtend_of_le hn, BitVec.ofInt_toInt]

theorem branchTarget_sext13 (taken : Bool) (pc : Word) (off : BitVec 13) :
    branchTarget taken pc (sext13 off) = if taken then BitVec.ofInt 32 (pc.toInt + off.toInt) else pc + 4#32 := by
  rw [branchTarget, sext13, add_signExtend_eq_ofInt (by decide)]

/-- The sum of even words is even. -/
theorem getLsbD_zero_add {a b : Word} (ha : a.getLsbD 0 = false) (hb : b.getLsbD 0 = false) :
    (a + b).getLsbD 0 = false := by
  rw [BitVec.getLsbD_add (by decide), ha, hb, BitVec.carry_zero]
  rfl

/-- A non-empty word keeps its lowest bit when it is sign-extended. -/
theorem getLsbD_zero_signExtend {n : Nat} (hn : 0 < n) (off : BitVec n) :
    (off.signExtend 32).getLsbD 0 = off.getLsbD 0 := by
  rw [BitVec.getLsbD_signExtend, if_pos hn, decide_eq_true (by decide), Bool.true_and]

/-- JALR clears bit 0 of its sum (R205). -/
theorem getLsbD_zero_jalrTarget (base imm : Word) : (jalrTarget base imm).getLsbD 0 = false := by
  simp [jalrTarget]

/-- A branch with an even offset goes from an even PC to an even one, taken or not. -/
theorem getLsbD_zero_branchTarget {pc : Word} {off : BitVec 13} (hpc : pc.getLsbD 0 = false)
    (hoff : off.getLsbD 0 = false) (taken : Bool) : (branchTarget taken pc (sext13 off)).getLsbD 0 = false := by
  cases taken with
  | false => exact getLsbD_zero_add hpc rfl
  | true => exact getLsbD_zero_add hpc ((getLsbD_zero_signExtend (by decide) off).trans hoff)

/-! ## What a word of each shape means (30_encoding.md R117, R118) -/

/-- The report of an unwritten read is outside the frame of a write. -/
theorem WritesOnly.of_noteRead {s t : State} {r rd : Reg} {v next : Word}
    (h : WritesOnly (s.noteRead r) rd v next t) : WritesOnly s rd v next t where
  reg := h.reg
  pc := h.pc
  memory := h.memory
  predictor := h.predictor
  control := { h.control with }

theorem means_of_opBranch {s : State} {w : Word} {i : Instr} {cond : Word → Word → Bool} {rs1 rs2 : Reg}
    {off : BitVec 13} {taken : Bool} (hexec : exec i s = .next (s.opBranch cond rs1 rs2 off))
    (hdecode : decode w = .ok i) (htaken : cond (s.readReg rs1) (s.readReg rs2) = taken) :
    Means w i s (BranchesOnly s taken
      (if taken then BitVec.ofInt 32 (s.pcF.toInt + off.toInt) else s.pcF + 4#32)) := by
  subst htaken
  rw [← branchTarget_sext13]
  exact ⟨hdecode, _, hexec, s.opBranch_spec cond rs1 rs2 off⟩

theorem decode_wordJ {off : BitVec 21} (hoff : off.getLsbD 0 = false) (rd : Reg) :
    decode (wordJ off rd 0b1101111#7) = .ok (.jal rd off) := by
  simp [decode, immJOf_wordJ _ _ _ hoff]

theorem decode_wordI_jalr (imm : BitVec 12) (rs1 : Reg) (f3 : BitVec 3) (rd : Reg) :
    decode (wordI imm rs1 f3 rd 0b1100111#7) = .ok (.jalr rd rs1 imm f3) := by
  simp [decode]

theorem decode_wordB_branch (off : BitVec 13) (rs2 rs1 : Reg) (f3 : BitVec 3) :
    decode (wordB off rs2 rs1 f3 0b1100011#7) = decodeBranch (wordB off rs2 rs1 f3 0b1100011#7) := by
  simp [decode]

/-! ## The instructions -/

/-- Settles O13: JAL's target is the exact sum, and JALR's is computed before the link is written. -/
theorem jumpResults : Obligations.JumpResults := by
  refine fun s rd rs1 => ⟨fun off hoff => ⟨decode_wordJ hoff rd, _, rfl, ?_⟩,
    fun imm f3 => ⟨decode_wordI_jalr imm rs1 f3 rd, _, rfl, ((s.noteRead rs1).opJump_spec rd _).of_noteRead⟩⟩
  rw [← add_signExtend_eq_ofInt (by decide)]
  exact s.opJump_spec rd _

/-- Settles O14: each word's funct3 selects its condition. -/
theorem branchResults : Obligations.BranchResults := by
  intro s rs1 rs2 off hoff
  refine ⟨means_of_opBranch (cond := condEq) rfl ?_ rfl, means_of_opBranch (cond := condNe) rfl ?_ rfl,
    means_of_opBranch (cond := condLt) rfl ?_ rfl, means_of_opBranch (cond := condGe) rfl ?_ rfl,
    means_of_opBranch (cond := condLtu) rfl ?_ rfl, means_of_opBranch (cond := condGeu) rfl ?_ rfl⟩
  all_goals simp [decode_wordB_branch, decodeBranch, immBOf_wordB _ _ _ _ _ hoff]

/-! ## Even PCs (R202) -/

/-- From an even PC every instruction that stands for a word answers a state at an even PC. -/
theorem exec_pcF_even {i : Instr} {s : State} (hwf : i.wf = true) (hpc : s.pcF.getLsbD 0 = false) :
    ∃ t, exec i s = .next t ∧ t.pcF.getLsbD 0 = false := by
  have hadvance : (s.pcF + 4#32).getLsbD 0 = false := getLsbD_zero_add hpc rfl
  cases i with
  | add | sub | sll | slt | sltu | xor | srl | sra | or | and
  | mul | mulh | mulhsu | mulhu | div | divu | rem | remu =>
    exact ⟨_, rfl, (s.opRegister_spec ..).pc ▸ hadvance⟩
  | addi | slti | sltiu | xori | ori | andi | slli | srli | srai =>
    exact ⟨_, rfl, (s.opImmediate_spec ..).pc ▸ hadvance⟩
  | lui | auipc => exact ⟨_, rfl, (s.opUpper_spec ..).pc ▸ hadvance⟩
  | jal rd off =>
    have hoff : off.getLsbD 0 = false := by simpa [Instr.wf] using hwf
    exact ⟨_, rfl, getLsbD_zero_add hpc ((getLsbD_zero_signExtend (by decide) off).trans hoff)⟩
  | jalr => exact ⟨_, rfl, getLsbD_zero_jalrTarget _ _⟩
  | beq _ _ off | bne _ _ off | blt _ _ off | bge _ _ off | bltu _ _ off | bgeu _ _ off =>
    have hoff : off.getLsbD 0 = false := by simpa [Instr.wf] using hwf
    exact ⟨_, rfl, getLsbD_zero_branchTarget hpc hoff _⟩
  | lb | lh | lw | lbu | lhu => exact ⟨_, rfl, (s.opLoad_spec ..).pc ▸ hadvance⟩
  | sb | sh | sw => exact ⟨_, rfl, hadvance⟩
  | fence | fenceI | ecall | ebreak | csrrw | csrrs | csrrc | csrrwi | csrrsi | csrrci | mret | sret | wfi
  | sfenceVma | lrW | scW | amo | loadFp | storeFp | opFp | fmadd | fmsub | fnmsub | fnmadd | op32 | opImm32
  | custom0 | custom1 | custom2 | custom3 | anyOther => exact ⟨_, rfl, hadvance⟩

/-- Settles O33: the next PC is `pc + 4`, or an even offset away, or JALR's cleared sum. -/
theorem evenPcKept : Obligations.EvenPcKept := by
  intro i s t hwf hpc h
  obtain ⟨u, hu, heven⟩ := exec_pcF_even hwf hpc
  obtain rfl : u = t := by simpa [hu] using h
  exact heven

end Sys2Proof.Machine

/-! SUPPORT. The loads and stores (43_loadstore.md): what a word of each shape means once its decoding is known, with
the value loaded or the bytes stored one by one. -/

namespace Sys2Proof.Machine

/-! ## What a word of each shape means (30_encoding.md R115, R116) -/

theorem means_of_opLoad {s : State} {w : Word} {i : Instr} {f3 : BitVec 3} {rd rs1 : Reg} {imm : BitVec 12} {v : Word}
    (hexec : exec i s = .next (s.opLoad f3 rd rs1 imm)) (hdecode : decode w = .ok i)
    (hv : loadValue s.params s.mem f3 (effAddr (s.readReg rs1) imm) = v) :
    Means w i s (WritesOnly s rd v (s.pcF + 4#32)) :=
  ⟨hdecode, _, hexec, hv ▸ s.opLoad_spec f3 rd rs1 imm⟩

/-- A store of `n` bytes sets these at the effective address and changes nothing else but the PC. -/
theorem State.opStore_storesOnly (s : State) (hlegal : s.params.legal = true) {f3 : BitVec 3} {n : Nat}
    (hn : (f3, n) ∈ [(0#3, 1), (1#3, 2), (2#3, 4)]) (rs2 rs1 : Reg) (imm : BitVec 12) :
    StoresOnly s (effAddr (s.readReg rs1) imm) n (s.readReg rs2) (s.opStore f3 rs2 rs1 imm) := by
  obtain ⟨hmem, hpc, hregs, hpred, hcontrol⟩ := s.opStore_spec f3 rs2 rs1 imm
  refine ⟨fun i hi => ?_, fun x hx => ?_, hpc, hregs, hpred, hcontrol⟩
  · rw [hcontrol.params, hmem]
    exact readByte_storeValue s.params hlegal s.mem f3 n hn _ _ hi
  · rw [hcontrol.params, hmem]
    exact readByte_storeValue_ne s.params s.mem f3 n hn _ _ x hx

theorem means_of_opStore {s : State} {w : Word} {i : Instr} {f3 : BitVec 3} {n : Nat} {rs2 rs1 : Reg} {imm : BitVec 12}
    (hexec : exec i s = .next (s.opStore f3 rs2 rs1 imm)) (hdecode : decode w = .ok i)
    (hlegal : s.params.legal = true) (hn : (f3, n) ∈ [(0#3, 1), (1#3, 2), (2#3, 4)]) :
    Means w i s (StoresOnly s (effAddr (s.readReg rs1) imm) n (s.readReg rs2)) :=
  ⟨hdecode, _, hexec, s.opStore_storesOnly hlegal hn rs2 rs1 imm⟩

theorem decode_wordI_load (imm : BitVec 12) (rs1 : Reg) (f3 : BitVec 3) (rd : Reg) :
    decode (wordI imm rs1 f3 rd 0b0000011#7) = decodeLoad (wordI imm rs1 f3 rd 0b0000011#7) := by
  simp [decode]

theorem decode_wordS_store (imm : BitVec 12) (rs2 rs1 : Reg) (f3 : BitVec 3) :
    decode (wordS imm rs2 rs1 f3 0b0100011#7) = decodeStore (wordS imm rs2 rs1 f3 0b0100011#7) := by
  simp [decode]

/-! ## The instructions -/

/-- Settles O15: each word's funct3 selects how many bytes from the effective address on are read, and their
extension. -/
theorem loadResults : Obligations.LoadResults := by
  intro s rd rs1 imm a M
  have hM0 : M 0 = readByte s.params s.mem a := congrArg (readByte s.params s.mem) (BitVec.add_zero a)
  dsimp only
  rw [hM0]
  refine ⟨means_of_opLoad rfl ?_ rfl, means_of_opLoad rfl ?_ rfl, means_of_opLoad rfl ?_ rfl,
    means_of_opLoad rfl ?_ rfl, means_of_opLoad rfl ?_ rfl⟩
  all_goals simp [decode_wordI_load, decodeLoad]

/-- Settles O16: each word's funct3 selects how many bytes are stored. -/
theorem storeResults : Obligations.StoreResults := by
  intro s rs2 rs1 imm hlegal
  refine ⟨means_of_opStore rfl ?_ hlegal (by decide), means_of_opStore rfl ?_ hlegal (by decide),
    means_of_opStore rfl ?_ hlegal (by decide)⟩
  all_goals simp [decode_wordS_store, decodeStore]

end Sys2Proof.Machine

/-! SUPPORT. The words of no implemented opcode (44_system_unallocated.md): their record, which has the format NOP, the
row of the table that reads each of them, and that every such row only advances the PC. -/

namespace Sys2Proof.Machine

/-! ## The words whose record is a NOP (R250) -/

/-- The nine opcodes of R103's table. -/
def implementedOpcodes : List (BitVec 7) :=
  [0b0110011#7, 0b0010011#7, 0b0000011#7, 0b1100111#7, 0b0100011#7, 0b1100011#7, 0b0110111#7, 0b0010111#7,
   0b1101111#7]

theorem formatOf_eq_nop_iff (op : BitVec 7) : formatOf op = .NOP ↔ op ∉ implementedOpcodes := by
  unfold formatOf implementedOpcodes
  split_ifs <;> simp_all

section

variable {w : Word} (h : formatOf (opcodeOf w) = .NOP)
include h

theorem decodeRecord_of_nop :
    decodeRecord w = { word := w, fmt := .NOP, opcode := opcodeOf w, funct3 := 0#3, funct7 := 0#7, rs1 := 0#5,
                       rs2 := 0#5, rd := 0#5, imm := 0#32 } := by
  simp [decodeRecord, h, hasRs1, hasRs2, hasRd, immediateOf]

theorem decode_of_nop : decode w = .ok (decodeOther w) := by
  simp only [formatOf_eq_nop_iff, implementedOpcodes, List.mem_cons, List.not_mem_nil, or_false, not_or] at h
  simp [decode, h]

/-- A word that transfers no control is predicted to be followed by the next one (50_pipeline.md R336). -/
theorem predictNext_of_nop (p : Params) (ctr : List (Nat × BitVec 2)) (hist : List (Nat × BitVec 8)) (pc : Word) :
    predictNext p ctr hist w pc = pc + 4#32 := by
  simp only [formatOf_eq_nop_iff, implementedOpcodes, List.mem_cons, List.not_mem_nil, or_false, not_or] at h
  simp [predictNext, h]

end

/-- A NOP record reads no register, so it waits on none (50_pipeline.md R330). -/
theorem State.hazard_of_nop {s : State} (h : formatOf (opcodeOf s.ifid.word) = .NOP) : s.hazard = false := by
  simp [State.hazard, State.inDecode, decodeRecord_of_nop h, hasRs1, hasRs2]

/-- A word that is an instruction is issued or not, and refused in neither case (50_pipeline.md R333). -/
theorem State.issuesReserved_of_decode_ok {s : State} {i : Instr} (h : decode s.ifid.word = .ok i) :
    s.issuesReserved = none :=
  Option.eq_none_iff_forall_ne_some.2 fun c hc => by
    simpa [h] using ((s.issuesReserved_eq_some c).1 hc).2

/-! ## What their rows do (R250) -/

/-- The instruction's whole effect is the PC's advance. -/
def IsNop (i : Instr) : Prop := ∀ s, exec i s = .next s.opNop

theorem IsNop.ite {c : Prop} [Decidable c] {i j : Instr} (hi : IsNop i) (hj : IsNop j) :
    IsNop (if c then i else j) := by
  split
  · exact hi
  · exact hj

theorem decodeMiscMem_isNop (w : Word) : IsNop (decodeMiscMem w) := by
  repeat' apply IsNop.ite
  all_goals exact fun _ => rfl

theorem decodeSystem_isNop (w : Word) : IsNop (decodeSystem w) := by
  repeat' apply IsNop.ite
  all_goals exact fun _ => rfl

theorem decodeAmo_isNop (w : Word) : IsNop (decodeAmo w) := by
  repeat' apply IsNop.ite
  all_goals exact fun _ => rfl

/-- Whatever row reads the word, it does nothing but advance the PC. -/
theorem decodeOther_isNop (w : Word) : IsNop (decodeOther w) := by
  refine .ite (decodeMiscMem_isNop w) (.ite (decodeSystem_isNop w) (.ite (decodeAmo_isNop w) ?_))
  repeat' apply IsNop.ite
  all_goals exact fun _ => rfl

/-- A word of no implemented opcode is the instruction of its row, a NOP. -/
theorem means_of_decodeOther {w : Word} {op : BitVec 7} {i : Instr} {s : State} (hop : opcodeOf w = op)
    (hfmt : formatOf op = .NOP) (hrow : decodeOther w = i) : Means w i s (AdvancesOnly s) := by
  subst hop hrow
  exact ⟨decode_of_nop hfmt, _, decodeOther_isNop w s, s.opNop_spec⟩

/-- Settles O5: the record has the format NOP, and each of its consequences is a fact about that format. -/
theorem unimplementedOpcodesAreNops : Obligations.UnimplementedOpcodesAreNops := by
  intro w hw I
  have hnop : formatOf (opcodeOf w) = .NOP := (formatOf_eq_nop_iff _).2 hw
  have hI : I = _ := decodeRecord_of_nop hnop
  refine ⟨hI, ?_, ?_, ?_, ?_, ?_, ?_,
    ⟨_, decode_of_nop hnop, fun s => ⟨_, decodeOther_isNop w s, s.opNop_spec⟩⟩, predictNext_of_nop hnop, ?pipe⟩
  case pipe =>
    rintro s rfl
    exact ⟨State.hazard_of_nop hnop, State.issuesReserved_of_decode_ok (decode_of_nop hnop)⟩
  all_goals rw [hI]; rfl

/-! ## The SYSTEM and MISC-MEM rows (R251 to R262) -/

/-- Of the privileged words SFENCE.VMA alone has its funct7. -/
theorem decodeSystem_of_sfence {w : Word} (hf7 : funct7Of w = 0b0001001#7) (hf3 : funct3Of w = 0#3)
    (hrd : rdOf w = 0#5) : decodeSystem w = .sfenceVma (rs1Of w) (rs2Of w) := by
  have hne : ∀ u, funct7Of u ≠ 0b0001001#7 → w ≠ u := by
    rintro u hu rfl
    exact hu hf7
  simp (disch := decide) [decodeSystem, hf7, hf3, hrd, hne]

/-- Settles O17: each word's row is read off its fields, and every row of the two opcodes is a NOP. -/
theorem systemWordsAreNops : Obligations.SystemWordsAreNops := by
  intro s rd rs1 rs2 imm
  refine ⟨means_of_decodeOther (opcodeOf_wordI ..) rfl ?_, means_of_decodeOther (opcodeOf_wordI ..) rfl ?_,
    means_of_decodeOther rfl rfl rfl, means_of_decodeOther rfl rfl rfl,
    means_of_decodeOther (opcodeOf_wordI ..) rfl ?_, means_of_decodeOther (opcodeOf_wordI ..) rfl ?_,
    means_of_decodeOther (opcodeOf_wordI ..) rfl ?_, means_of_decodeOther (opcodeOf_wordI ..) rfl ?_,
    means_of_decodeOther (opcodeOf_wordI ..) rfl ?_, means_of_decodeOther (opcodeOf_wordI ..) rfl ?_,
    means_of_decodeOther rfl rfl rfl, means_of_decodeOther rfl rfl rfl, means_of_decodeOther rfl rfl rfl,
    means_of_decodeOther (opcodeOf_wordR ..) rfl ?sfence, fun w hop => ⟨_, means_of_decodeOther rfl ?any rfl⟩⟩
  case sfence => simp [decodeOther, decodeSystem_of_sfence]
  case any =>
    have hfmt : ∀ op ∈ [0b0001111#7, 0b1110011#7], formatOf op = .NOP := by decide
    exact hfmt _ hop
  all_goals simp [decodeOther, decodeMiscMem, decodeSystem]

/-! ## The AMO rows (R263) -/

/-- A slice of a slice is a slice of the word. -/
theorem extractLsb'_extractLsb' {n start len start' len' : Nat} (x : BitVec n) (h : start' + len' ≤ len) :
    (x.extractLsb' start len).extractLsb' start' len' = x.extractLsb' (start + start') len' := by
  ext i hi
  simp only [BitVec.getElem_extractLsb', BitVec.getLsbD_extractLsb', Nat.add_assoc]
  simp [show start' + i < len by omega]

/-- LR.W's row, by the fields of the word. -/
theorem isLrRest_restOf (w : Word) :
    isLrRest (restOf w) = ((funct7Of w).extractLsb' 2 5 == 0b00010#5 && rs2Of w == 0#5 && funct3Of w == 0b010#3) := by
  simp [isLrRest, restOf, funct7Of, rs2Of, funct3Of, extractLsb'_extractLsb']

/-- SC.W's row, by the fields of the word. -/
theorem isScRest_restOf (w : Word) :
    isScRest (restOf w) = ((funct7Of w).extractLsb' 2 5 == 0b00011#5 && funct3Of w == 0b010#3) := by
  simp [isScRest, restOf, funct7Of, funct3Of, extractLsb'_extractLsb']

section

variable {w : Word} {f5 : BitVec 5} {aqrl : BitVec 2} (hf7 : funct7Of w = f5 ++ aqrl)
include hf7

theorem extractLsb'_funct5 : (funct7Of w).extractLsb' 2 5 = f5 := by
  rw [hf7]
  exact BitVec.extractLsb'_append_eq_left

theorem extractLsb'_aqrl : w.extractLsb' 25 2 = aqrl := by
  have haqrl : (funct7Of w).extractLsb' 0 2 = aqrl := by
    rw [hf7]
    exact BitVec.extractLsb'_append_eq_right
  rwa [funct7Of, extractLsb'_extractLsb' w (by decide)] at haqrl

end

theorem decodeAmo_of_lr {w : Word} {aqrl : BitVec 2} (hf7 : funct7Of w = 0b00010#5 ++ aqrl) (hrs2 : rs2Of w = 0#5)
    (hf3 : funct3Of w = 2#3) : decodeAmo w = .lrW (rdOf w) (rs1Of w) aqrl := by
  simp [decodeAmo, isLrRest_restOf, extractLsb'_funct5 hf7, extractLsb'_aqrl hf7, hrs2, hf3]

theorem decodeAmo_of_sc {w : Word} {aqrl : BitVec 2} (hf7 : funct7Of w = 0b00011#5 ++ aqrl)
    (hf3 : funct3Of w = 2#3) : decodeAmo w = .scW (rdOf w) (rs1Of w) (rs2Of w) aqrl := by
  simp [decodeAmo, isLrRest_restOf, isScRest_restOf, extractLsb'_funct5 hf7, extractLsb'_aqrl hf7, hf3]

theorem decodeOther_of_amo {w : Word} (h : opcodeOf w = 0b0101111#7) : decodeOther w = decodeAmo w := by
  simp [decodeOther, h]

/-! ## The other rows (R264, R265) -/

theorem isOtherWord_iff (w : Word) :
    isOtherWord w = true ↔ opcodeOf w ∉ rowOpcodes ∧ (opcodeOf w = 0b0001111#7 → isMiscMemRow w = false)
      ∧ (opcodeOf w = 0b1110011#7 → isSystemRow w = false) := by
  simp [isOtherWord, opcodeOf, and_assoc, imp_iff_not_or]

theorem decodeMiscMem_of_not_row {w : Word} (h : isMiscMemRow w = false) : decodeMiscMem w = .anyOther w := by
  simp only [isMiscMemRow, Bool.or_eq_false_iff, beq_eq_false_iff_ne] at h
  simp [decodeMiscMem, funct3Of, h]

theorem decodeSystem_of_not_row {w : Word} (h : isSystemRow w = false) : decodeSystem w = .anyOther w := by
  simp only [isSystemRow, Bool.eq_false_iff, ne_eq, Bool.or_eq_true, Bool.and_eq_true, beq_iff_eq, not_or,
    and_assoc] at h
  simp [decodeSystem, funct3Of, rdOf, funct7Of, h]

/-- The words left to the catch-all row are read as it. -/
theorem decodeOther_of_isOtherWord {w : Word} (h : isOtherWord w = true) : decodeOther w = .anyOther w := by
  obtain ⟨hrow, hmisc, hsystem⟩ := (isOtherWord_iff w).1 h
  by_cases hop : opcodeOf w = 0b0001111#7
  · simp [decodeOther, hop, decodeMiscMem_of_not_row (hmisc hop)]
  by_cases hop' : opcodeOf w = 0b1110011#7
  · simp [decodeOther, hop', decodeSystem_of_not_row (hsystem hop')]
  simp only [rowOpcodes, List.mem_cons, List.not_mem_nil, or_false, not_or] at hrow
  simp [decodeOther, hop, hop', hrow]

theorem formatOf_eq_nop_of_isOtherWord {w : Word} (h : isOtherWord w = true) : formatOf (opcodeOf w) = .NOP := by
  have hsub : implementedOpcodes ⊆ rowOpcodes := by decide
  exact (formatOf_eq_nop_iff _).2 fun hop => ((isOtherWord_iff w).1 h).1 (hsub hop)

/-- Every implemented opcode ends in 11. -/
theorem formatOf_eq_nop_of_low_bits {w : Word} (h : w.extractLsb' 0 2 ≠ 0b11#2) : formatOf (opcodeOf w) = .NOP := by
  have hlow : ∀ op ∈ implementedOpcodes, op.extractLsb' 0 2 = 0b11#2 := by decide
  exact (formatOf_eq_nop_iff _).2 fun hop =>
    h ((BitVec.extractLsb'_extractLsb'_of_le (by decide)).symm.trans (hlow _ hop))

/-- A row that the opcode alone selects. -/
theorem means_of_rest {rest : BitVec 25} {op : BitVec 7} {i : Instr} {s : State} (hfmt : formatOf op = .NOP)
    (hrow : decodeOther (wordRest rest op) = i) : Means (rest ++ op) i s (AdvancesOnly s) :=
  means_of_decodeOther (opcodeOf_wordRest rest op) hfmt hrow

/-- Settles O18: each word's row is read off its opcode, and of AMO's rows off its fields. -/
theorem unallocatedWordsAreNops : Obligations.UnallocatedWordsAreNops := by
  intro s rd rs1 rs2 aqrl rest w
  refine ⟨means_of_decodeOther (opcodeOf_wordR ..) rfl ?lr, means_of_decodeOther (opcodeOf_wordR ..) rfl ?sc,
    fun hlr hsc => means_of_rest rfl ?amo, means_of_rest rfl ?_, means_of_rest rfl ?_, means_of_rest rfl ?_,
    means_of_rest rfl ?_, means_of_rest rfl ?_, means_of_rest rfl ?_, means_of_rest rfl ?_, means_of_rest rfl ?_,
    means_of_rest rfl ?_, means_of_rest rfl ?_, means_of_rest rfl ?_, means_of_rest rfl ?_, means_of_rest rfl ?_,
    fun hother => means_of_decodeOther rfl (formatOf_eq_nop_of_isOtherWord hother) (decodeOther_of_isOtherWord hother),
    fun hlow => ⟨_, means_of_decodeOther rfl (formatOf_eq_nop_of_low_bits hlow) rfl⟩⟩
  case lr =>
    rw [decodeOther_of_amo (opcodeOf_wordR ..),
      decodeAmo_of_lr (funct7Of_wordR ..) (rs2Of_wordR ..) (funct3Of_wordR ..), rdOf_wordR, rs1Of_wordR]
  case sc =>
    rw [decodeOther_of_amo (opcodeOf_wordR ..), decodeAmo_of_sc (funct7Of_wordR ..) (funct3Of_wordR ..), rdOf_wordR,
      rs1Of_wordR, rs2Of_wordR]
  case amo => simp [decodeOther, decodeAmo, hlr, hsc]
  all_goals simp [decodeOther]

end Sys2Proof.Machine

/-! SUPPORT. What completing the instructions in flight does (50_pipeline.md R326, R333, R350): the flush in closed
form, stage by stage, what a cycle adds to it, and the operands and registers it leaves. -/

namespace Sys2Proof.Machine

/-! ## WriteBack as a record update (50_pipeline.md R310) -/

/-- WriteBack of the value `v` for the instruction `i`; an instruction that names no register but x0 writes none. -/
def State.writeBack (s : State) (i : Inst) (v : Word) : State :=
  { s with
    regs    := if i.producer && i.rd != 0#5 then s.regs.set i.rd.toNat v i.rd.isLt else s.regs
    written := if i.producer && i.rd != 0#5 then s.written.set i.rd.toNat true i.rd.isLt else s.written }

theorem State.writeBack_of_producer {i : Inst} (h : i.producer = true) (s : State) (v : Word) :
    s.writeBack i v = s.writeReg i.rd v := by
  by_cases hrd : i.rd = 0#5 <;> simp [State.writeBack, State.writeReg, h, hrd]

theorem State.writeBack_of_not_producer {i : Inst} (h : i.producer = false) (s : State) (v : Word) :
    s.writeBack i v = s := by
  simp [State.writeBack, h]

/-- A commit is the WriteBack of the instruction in MEM/WB and an update of the other registers. -/
theorem commit_eq_writeBack (s : State) (d : DecodeOut) :
    commit s d =
      { s.writeBack s.memwb.inst (signals s).wbVal with
        unwrittenRead := s.unwrittenRead || d.unwritten
        pcF := currentFetchPc s d.stall, npcF := nextFetchPc s d.stall, ifid := fetchOut s d.stall, idex := d.idex
        exmem := { inst := s.idex.inst, pc := s.idex.pc, alu := (signals s).alu, b := s.idex.b }
        memwb := { inst := s.exmem.inst, pc := s.exmem.pc, alu := s.exmem.alu, mdata := (signals s).mdata }
        ctr := (signals s).ctr, hist := (signals s).hist, irqCnt := d.irqCnt, irqActive := d.irqActive
        retAddr := (signals s).retNow, mem := (signals s).mem } := by
  have hen : (signals s).wbEn = (s.memwb.inst.producer && s.memwb.inst.rd != 0#5) := rfl
  unfold commit State.writeBack
  rw [← hen]
  cases hw : (signals s).wbEn with
  | false => simp [hw]
  | true =>
    have hrd : s.memwb.inst.rd ≠ 0#5 := bne_iff_ne.1 (Bool.and_eq_true_iff.1 (hen ▸ hw)).2
    simp [hw, State.writeReg, hrd]

/-! ## The stages, completed one by one -/

/-- The instructions in Memory and WriteBack completed: their stores and register writes are those this cycle offers
for forwarding (50_pipeline.md R310 to R312). -/
def State.olderCompleted (s : State) : State :=
  { (s.writeBack s.memwb.inst (signals s).wbVal).writeBack s.exmem.inst (signals s).memFwd with mem := (signals s).mem }

/-- All that the issued instruction `d` still does to the registers, memory, the predictor and the return address of a
countdown, every older instruction having completed (50_pipeline.md R310, R311, R318, R319). -/
def State.perform (s : State) (d : IdEx) : State :=
  let alu := d.inst.alu d.a d.b d.pc
  let loaded := if d.inst.isLoad then loadValue s.params s.mem d.inst.funct3 alu else 0#32
  let taken := branchCond d.inst.funct3 d.a d.b
  { s.writeBack d.inst (d.inst.writeValue d.pc alu loaded) with
    mem     := if d.inst.isStore then storeValue s.params s.mem d.inst.funct3 alu d.b else s.mem
    ctr     := if d.inst.isBranch then updateCtr s.params s.ctr s.hist d.pc taken else s.ctr
    hist    := if d.inst.isBranch then updateHist s.params s.hist d.pc taken else s.hist
    retAddr := if squashes d && s.irqActive then alu else s.retAddr }

/-- Where Fetch stands once `d` has executed, having stood at `pc` before (50_pipeline.md R317, R335). -/
def IdEx.nextPc (d : IdEx) (pc : Word) : Word := if squashes d then d.inst.alu d.a d.b d.pc else pc

/-- Everything in flight completed, and Fetch restarted where it then stands. -/
def State.completed (s : State) : State := (s.olderCompleted.perform s.idex).restart (s.idex.nextPc s.pcF)

/-- The fields that Decode writes besides ID/EX. -/
def State.decoded (s : State) (d : DecodeOut) : State :=
  { s with unwrittenRead := s.unwrittenRead || d.unwritten, irqCnt := d.irqCnt, irqActive := d.irqActive }

/-- A cycle adds to the completion just what Decode issues in it. -/
theorem completed_commit (s : State) (d : DecodeOut) :
    (commit s d).completed =
      ((s.completed.decoded d).perform d.idex).restart (d.idex.nextPc (currentFetchPc s d.stall)) := by
  rw [commit_eq_writeBack]
  rfl

/-! ## Instructions with no effect -/

/-- The instruction writes no register but x0, stores nothing and transfers no control. -/
def Inst.effectless (i : Inst) : Bool := !(i.producer && i.rd != 0#5) && !i.isStore && !i.isCf

theorem Inst.effectless_iff (i : Inst) :
    i.effectless = true ↔ (i.producer && i.rd != 0#5) = false ∧ i.isStore = false ∧ i.isCf = false := by
  simp only [Inst.effectless, Bool.and_eq_true, Bool.not_eq_true', and_assoc]

theorem Inst.bubble_effectless : Inst.bubble.effectless = true := rfl

theorem squashes_of_not_isCf {d : IdEx} (h : d.inst.isCf = false) : squashes d = false := by simp [squashes, h]

theorem Inst.isBranch_of_not_isCf {i : Inst} (h : i.isCf = false) : i.isBranch = false := by
  simp only [Inst.isCf, Bool.or_eq_false_iff] at h
  exact h.1.1

section

variable {d : IdEx} (h : d.inst.effectless = true)
include h

theorem State.perform_of_effectless (s : State) : s.perform d = s := by
  obtain ⟨hrd, hstore, hcf⟩ := d.inst.effectless_iff.1 h
  simp [State.perform, State.writeBack, hrd, hstore, Inst.isBranch_of_not_isCf hcf, squashes_of_not_isCf hcf]

theorem IdEx.nextPc_of_effectless (pc : Word) : d.nextPc pc = pc := by
  simp [IdEx.nextPc, squashes_of_not_isCf (d.inst.effectless_iff.1 h).2.2]

end

/-! ## The flush -/

/-- Fetch holds unless Execute redirects. -/
theorem currentFetchPc_held (s : State) : currentFetchPc s (!squashes s.idex) = s.idex.nextPc s.pcF := by
  have hg : (signals s).squash = squashes s.idex := rfl
  simp only [currentFetchPc, fetchOut, IdEx.nextPc, hg]
  cases squashes s.idex <;> rfl

theorem completed_drainCycle (s : State) : (drainCycle s).completed = s.completed := by
  rw [drainCycle, completed_commit, State.perform_of_effectless Inst.bubble_effectless,
    IdEx.nextPc_of_effectless Inst.bubble_effectless, currentFetchPc_held]
  simp only [State.decoded, Bool.or_false]
  rfl

theorem State.completed_of_drained {s : State} (h : s.drained) : s.completed = s.restart s.pcF := by
  obtain ⟨hidex, hexmem, hmemwb⟩ := h
  have he : s.idex.inst.effectless = true := hidex ▸ Inst.bubble_effectless
  rw [State.completed, State.perform_of_effectless he, IdEx.nextPc_of_effectless he]
  simp [State.olderCompleted, State.writeBack, signals, hexmem, hmemwb]

/-- The three drain cycles complete what is in flight, and no more. -/
theorem State.flush_eq_completed (s : State) : s.flush = s.completed := by
  have hdrained : (drainCycle (drainCycle (drainCycle s))).drained := ⟨rfl, rfl, rfl⟩
  calc s.flush
    _ = (drainCycle (drainCycle (drainCycle s))).completed := (State.completed_of_drained hdrained).symm
    _ = s.completed := by rw [completed_drainCycle, completed_drainCycle, completed_drainCycle]

/-- A cycle adds to what the instruction level sees just what Decode issues in it. -/
theorem flush_commit (s : State) (d : DecodeOut) :
    (commit s d).flush =
      ((s.flush.decoded d).perform d.idex).restart (d.idex.nextPc (currentFetchPc s d.stall)) := by
  rw [State.flush_eq_completed, State.flush_eq_completed, completed_commit]

@[simp] theorem State.flush_pcF (s : State) : s.flush.pcF = s.idex.nextPc s.pcF := by
  rw [State.flush_eq_completed]
  rfl

@[simp] theorem State.flush_irqCnt (s : State) : s.flush.irqCnt = s.irqCnt := by
  rw [State.flush_eq_completed]
  rfl

/-! ## Registers once what is in flight completes (50_pipeline.md R326, R333) -/

/-- Does WriteBack write register `r` for the instruction (R322, R326)? -/
def Inst.writes (i : Inst) (r : Reg) : Bool := i.producer && i.rd == r

theorem State.readReg_writeBack {r : Reg} (hr : r ≠ 0#5) (s : State) (i : Inst) (v : Word) :
    (s.writeBack i v).readReg r = if i.writes r then v else s.readReg r := by
  cases hp : i.producer with
  | false => simp [State.writeBack_of_not_producer hp, Inst.writes, hp]
  | true => simp [State.writeBack_of_producer hp, Inst.writes, hp, State.readReg_writeReg, hr, eq_comm (a := r)]

theorem State.unwritten_writeBack (s : State) (i : Inst) (v : Word) (r : Reg) :
    (s.writeBack i v).unwritten r = (s.unwritten r && !i.writes r) := by
  cases hp : i.producer with
  | false => simp [State.writeBack_of_not_producer hp, Inst.writes, hp]
  | true =>
    rw [State.writeBack_of_producer hp, State.unwritten_writeReg, Inst.writes, hp, Bool.true_and, decide_not]
    simp only [eq_comm (a := r)]
    rfl

/-- The value the instruction in Execute will write, loading after every older store (50_pipeline.md R310, R311). -/
def State.executeValue (s : State) : Word :=
  s.idex.inst.writeValue s.idex.pc (signals s).alu
    (if s.idex.inst.isLoad then loadValue s.params (signals s).mem s.idex.inst.funct3 (signals s).alu else 0#32)

/-- The register writes in flight performed, oldest first. -/
def State.writesCompleted (s : State) : State :=
  ((s.writeBack s.memwb.inst (signals s).wbVal).writeBack s.exmem.inst (signals s).memFwd).writeBack s.idex.inst
    s.executeValue

theorem State.flush_readReg (s : State) (r : Reg) : s.flush.readReg r = s.writesCompleted.readReg r := by
  rw [State.flush_eq_completed]
  rfl

theorem State.flush_unwritten (s : State) (r : Reg) : s.flush.unwritten r = s.writesCompleted.unwritten r := by
  rw [State.flush_eq_completed]
  rfl

/-- Execute forwards what WriteBack will write (50_pipeline.md R327). -/
theorem Inst.writeValue_of_forwardsFromExecute {i : Inst} (h : i.forwardsFromExecute = true) (pc alu mdata : Word) :
    i.writeValue pc alu mdata = alu := by
  simp only [Inst.forwardsFromExecute, Bool.or_eq_true, beq_iff_eq] at h
  obtain h | h := h <;> simp [Inst.writeValue, Inst.isLoad, Inst.isJal, Inst.isJalr, h]

/-- An operand comes from the youngest instruction in flight that writes it (50_pipeline.md R326). -/
theorem operandSource_of_ne_zero {r : Reg} (hr : r ≠ 0#5) (s : State) :
    operandSource s r =
      if s.idex.inst.writes r then (if s.idex.inst.forwardsFromExecute then .execute else .unresolved)
      else if s.exmem.inst.writes r then .memory
      else if s.memwb.inst.writes r then .writeBack
      else .regFile := if_neg hr

/-- Settles O37: the youngest writer in flight, if there is one, is the last to write the register. -/
theorem operandForwarding : Obligations.OperandForwarding := by
  intro s r hsource
  rw [State.flush_readReg, State.flush_unwritten]
  by_cases hr : r = 0#5
  · subst hr
    exact ⟨rfl, rfl⟩
  have hyoungest := operandSource_of_ne_zero hr s
  simp only [operandValue, operandUnwritten, State.writesCompleted, State.readReg_writeBack hr,
    State.unwritten_writeBack]
  cases hidex : s.idex.inst.writes r with
  | true =>
    have hforward : s.idex.inst.forwardsFromExecute = true := by
      by_contra hno
      simp [hyoungest, hidex, hno] at hsource
    simp [hyoungest, hidex, hforward, State.executeValue, Inst.writeValue_of_forwardsFromExecute hforward]
  | false =>
    cases hexmem : s.exmem.inst.writes r with
    | true => simp [hyoungest, hidex, hexmem]
    | false => cases hmemwb : s.memwb.inst.writes r <;> simp [hyoungest, hidex, hexmem, hmemwb]

/-- Three commits write back what was in flight before them, whatever Decode issues in them. -/
theorem readReg_three_commits (s : State) (d₁ d₂ d₃ : DecodeOut) (r : Reg) :
    (commit (commit (commit s d₁) d₂) d₃).readReg r = s.writesCompleted.readReg r := by
  simp only [commit_eq_writeBack]
  rfl

theorem cycles_succ_next_iff (n : Nat) (s t : State) :
    cycles (n + 1) s = .next t ↔ ∃ u, cycle s = .next u ∧ cycles n u = .next t := by
  cases h : cycle s <;> simp [cycles, h]

/-- Settles O42: three cycles are three commits, and the third writes back the instruction that was in Execute. -/
theorem retirementLatency : Obligations.RetirementLatency := by
  intro s t h r
  simp only [cycles_succ_next_iff, cycle_next_iff] at h
  obtain ⟨_, ⟨-, rfl⟩, _, ⟨-, rfl⟩, _, ⟨-, rfl⟩, h⟩ := h
  obtain rfl := Host.Outcome.next.inj h
  rw [State.flush_readReg, readReg_three_commits]

end Sys2Proof.Machine

/-! SUPPORT. The two levels' readings of one word (50_pipeline.md R315, R351): the instruction that the word decodes to
does at the instruction level what the stages do with the word's record. -/

namespace Sys2Proof.Machine

/-! ## An instruction issued at the PC, with its operands from the register file -/

/-- What Decode issues for the record `i` at the PC when nothing is in flight (50_pipeline.md R331 case 4). -/
def State.issueOf (s : State) (i : Inst) (pred : Word) : IdEx where
  inst := i
  pc   := s.pcF
  pred := pred
  a    := if hasRs1 i.fmt then s.readReg i.rs1 else 0#32
  b    := if hasRs2 i.fmt then s.readReg i.rs2 else 0#32
  irqj := false

/-- The report of an unwritten read (10_state.md R35) for every register the record reads. -/
def State.noteReads (s : State) (i : Inst) : State :=
  let t := if hasRs1 i.fmt then s.noteRead i.rs1 else s
  if hasRs2 i.fmt then t.noteRead i.rs2 else t

@[simp] theorem State.noteReads_unwrittenRead (s : State) (i : Inst) :
    (s.noteReads i).unwrittenRead = (s.unwrittenRead ||
      ((hasRs1 i.fmt && s.unwritten i.rs1) || (hasRs2 i.fmt && s.unwritten i.rs2))) := by
  unfold State.noteReads
  cases hasRs1 i.fmt <;> cases hasRs2 i.fmt <;> simp [Bool.or_assoc]

/-- Nothing but the report changes. -/
theorem State.noteReads_eq (s : State) (i : Inst) :
    s.noteReads i = { s with unwrittenRead := (s.noteReads i).unwrittenRead } := by
  unfold State.noteReads
  cases hasRs1 i.fmt <;> cases hasRs2 i.fmt <;> rfl

/-- The address of the instruction that follows: the ALU output of a control transfer, else the next word
(42_control.md R200). -/
def IdEx.follower (d : IdEx) : Word := if d.inst.isCf then d.inst.alu d.a d.b d.pc else d.pc + 4#32

/-- The instruction issued at the PC, performed, and followed by the next one, as the stages do it. -/
def State.performInst (s : State) (i : Inst) (pred : Word) : State :=
  ((s.noteReads i).perform (s.issueOf i pred)).setPc (s.issueOf i pred).follower

/-! ## What a record of each class performs (50_pipeline.md R310, R311, R318) -/

section

variable {s : State} {i : Inst} (ha : s.irqActive = false)
include ha

theorem State.performInst_of_producer (hp : i.producer = true) (hs : i.isStore = false) (hb : i.isBranch = false)
    (pred : Word) :
    let d := s.issueOf i pred
    let alu := i.alu d.a d.b d.pc
    s.performInst i pred =
      ((s.noteReads i).writeReg i.rd (i.writeValue d.pc alu
        (if i.isLoad then loadValue s.params s.mem i.funct3 alu else 0#32))).setPc d.follower := by
  dsimp only
  rw [State.performInst, State.noteReads_eq, ← State.writeBack_of_producer hp]
  simp only [State.perform, State.issueOf, hs, hb, ha, Bool.and_false]
  rfl

theorem State.performInst_of_store (hp : i.producer = false) (hs : i.isStore = true) (hb : i.isBranch = false)
    (pred : Word) :
    let d := s.issueOf i pred
    s.performInst i pred =
      ({ s.noteReads i with mem := storeValue s.params s.mem i.funct3 (i.alu d.a d.b d.pc) d.b } : State).setPc
        d.follower := by
  dsimp only
  rw [State.performInst, State.noteReads_eq]
  simp only [State.perform, State.writeBack_of_not_producer hp, State.issueOf, hs, hb, ha, Bool.and_false]
  rfl

theorem State.performInst_of_branch (hp : i.producer = false) (hs : i.isStore = false) (hb : i.isBranch = true)
    (pred : Word) :
    let d := s.issueOf i pred
    s.performInst i pred =
      ((s.noteReads i).updatePredictor d.pc (branchCond i.funct3 d.a d.b)).setPc d.follower := by
  dsimp only
  rw [State.performInst, State.noteReads_eq]
  simp only [State.perform, State.writeBack_of_not_producer hp, State.issueOf, hs, hb, ha, Bool.and_false]
  rfl

end

/-- The record of a word by its opcode and format (30_encoding.md R103, R105). -/
theorem decodeRecord_of_format {w : Word} {op : BitVec 7} {f : Fmt} (hop : opcodeOf w = op) (hf : formatOf op = f) :
    decodeRecord w =
      { word := w, fmt := f, opcode := op, funct3 := if hasRs1 f then funct3Of w else 0#3
        funct7 := if f = .R then funct7Of w else 0#7, rs1 := if hasRs1 f then rs1Of w else 0#5
        rs2 := if hasRs2 f then rs2Of w else 0#5, rd := if hasRd f then rdOf w else 0#5, imm := immediateOf f w } := by
  subst hop hf
  rfl

theorem State.writeReg_advance (s : State) (rd : Reg) (v : Word) :
    (s.writeReg rd v).advance = (s.writeReg rd v).setPc (s.pcF + 4#32) := by
  rw [State.advance, State.writeReg_pcF]

/-! ## The instruction of a word, by the fields that select it (30_encoding.md R113 to R117) -/

section

variable {w : Word} {i : Instr}

theorem exec_of_decodeRegister (h : decodeRegister w = .ok i) (s : State) :
    exec i s = .next (s.opRegister (aluRegister (funct7Of w) (funct3Of w)) (rdOf w) (rs1Of w) (rs2Of w)) := by
  by_cases hbase : funct7Of w = 0b0000000#7
  · obtain h3 | h3 | h3 | h3 | h3 | h3 | h3 | h3 := funct3_cases (funct3Of w) <;>
      simp [decodeRegister, hbase, h3] at h <;> subst h <;> rw [hbase, h3] <;> rfl
  by_cases hinv : funct7Of w = 0b0100000#7
  · by_cases h0 : funct3Of w = 0#3
    · simp [decodeRegister, hinv, h0] at h
      subst h
      rw [hinv, h0]
      rfl
    by_cases h5 : funct3Of w = 5#3
    · simp [decodeRegister, hinv, h5] at h
      subst h
      rw [hinv, h5]
      rfl
    simp [decodeRegister, hinv, h0, h5] at h
  by_cases hmul : funct7Of w = 0b0000001#7
  · obtain h3 | h3 | h3 | h3 | h3 | h3 | h3 | h3 := funct3_cases (funct3Of w) <;>
      simp [decodeRegister, hmul, h3] at h <;> subst h <;> rw [hmul, h3] <;> rfl
  simp [decodeRegister, hbase, hinv, hmul] at h

/-- Bit 10 of the immediate, which tells SRAI from SRLI, is the same before and after the sign extension. -/
theorem getLsbD_ten_sext12 (imm : BitVec 12) : (sext12 imm).getLsbD 10 = imm.getLsbD 10 := by
  rw [sext12, BitVec.getLsbD_signExtend]
  rfl

theorem aluImmediate_five (a : Word) (imm : BitVec 12) :
    aluImmediate 5#3 a (sext12 imm) = if imm.getLsbD 10 then aluSra a (sext12 imm) else aluSrl a (sext12 imm) := by
  rw [← getLsbD_ten_sext12]
  rfl

theorem exec_decodeImmediate (w : Word) (s : State) :
    exec (decodeImmediate w) s =
      .next (s.opImmediate (aluImmediate (funct3Of w)) (rdOf w) (rs1Of w) (sext12 (immIOf w))) := by
  obtain h | h | h | h | h | h | h | h := funct3_cases (funct3Of w)
  on_goal 6 =>
    have hdecode : decodeImmediate w = if (immIOf w).getLsbD 10 then .srai (rdOf w) (rs1Of w) (immIOf w)
        else .srli (rdOf w) (rs1Of w) (immIOf w) := by
      simp only [decodeImmediate, h]
      rfl
    rw [hdecode, h, State.opImmediate, aluImmediate_five]
    split <;> rfl
  all_goals
    simp only [decodeImmediate, h]
    rfl

theorem exec_of_decodeLoad (h : decodeLoad w = .ok i) (s : State) :
    exec i s = .next (s.opLoad (funct3Of w) (rdOf w) (rs1Of w) (immIOf w)) := by
  obtain h3 | h3 | h3 | h3 | h3 | h3 | h3 | h3 := funct3_cases (funct3Of w) <;>
    simp [decodeLoad, h3] at h <;> subst h <;> rw [h3] <;> rfl

theorem exec_of_decodeStore (h : decodeStore w = .ok i) (s : State) :
    exec i s = .next (s.opStore (funct3Of w) (rs2Of w) (rs1Of w) (immSOf w)) := by
  obtain h3 | h3 | h3 | h3 | h3 | h3 | h3 | h3 := funct3_cases (funct3Of w) <;>
    simp [decodeStore, h3] at h <;> subst h <;> rw [h3] <;> rfl

theorem exec_of_decodeBranch (h : decodeBranch w = .ok i) (s : State) :
    exec i s = .next (s.opBranch (branchCond (funct3Of w)) (rs1Of w) (rs2Of w) (immBOf w)) := by
  obtain h3 | h3 | h3 | h3 | h3 | h3 | h3 | h3 := funct3_cases (funct3Of w) <;>
    simp [decodeBranch, h3] at h <;> subst h <;> rw [h3] <;> rfl

end

/-- The instruction a word decodes to does what the stages do with the word's record. -/
theorem exec_eq_performInst {w : Word} {i : Instr} {s : State} (ha : s.irqActive = false) (h : decode w = .ok i)
    (pred : Word) : exec i s = .next (s.performInst (decodeRecord w) pred) := by
  by_cases hop : opcodeOf w ∈ implementedOpcodes
  · simp only [implementedOpcodes, List.mem_cons, List.not_mem_nil, or_false] at hop
    obtain hop | hop | hop | hop | hop | hop | hop | hop | hop := hop <;> simp [decode, hop] at h <;>
      rw [decodeRecord_of_format hop rfl]
    · rw [exec_of_decodeRegister h, State.performInst_of_producer ha rfl rfl rfl]
      exact congrArg _ (State.writeReg_advance ..)
    · rw [← h, exec_decodeImmediate, State.performInst_of_producer ha rfl rfl rfl]
      exact congrArg _ (State.writeReg_advance ..)
    · rw [exec_of_decodeLoad h, State.performInst_of_producer ha rfl rfl rfl]
      exact congrArg _ (State.writeReg_advance ..)
    · rw [← h, State.performInst_of_producer ha rfl rfl rfl]
      rfl
    · rw [exec_of_decodeStore h, State.performInst_of_store ha rfl rfl rfl]
      rfl
    · rw [exec_of_decodeBranch h, State.performInst_of_branch ha rfl rfl rfl]
      rfl
    · rw [← h, State.performInst_of_producer ha rfl rfl rfl]
      exact congrArg _ (State.writeReg_advance ..)
    · rw [← h, State.performInst_of_producer ha rfl rfl rfl]
      exact congrArg _ (State.writeReg_advance ..)
    · rw [← h, State.performInst_of_producer ha rfl rfl rfl]
      rfl
  · have hnop := (formatOf_eq_nop_iff _).2 hop
    obtain rfl : decodeOther w = i := by simpa [decode_of_nop hnop] using h
    rw [decodeOther_isNop, decodeRecord_of_nop hnop, State.performInst, State.perform_of_effectless rfl]
    rfl

end Sys2Proof.Machine

/-! SUPPORT. One cycle against the reference interpreter (50_pipeline.md R350, R351): what each case of Decode adds to
what the interpreter sees. -/

namespace Sys2Proof.Machine

/-! ## Restarted states -/

theorem State.restart_of_quiet {s : State} (h : s.quiet = true) : s.restart s.pcF = s := by
  obtain ⟨hnpc, hifid, hidex, hexmem, hmemwb⟩ := s.quiet_iff.1 h
  cases s
  simp_all [State.restart, State.setPc]

theorem State.setPc_eq_restart {s : State} (hidex : s.idex = IdEx.empty) (hexmem : s.exmem = ExMem.empty)
    (hmemwb : s.memwb = MemWb.empty) (pc : Word) : s.setPc pc = s.restart pc := by
  rw [State.restart, ← hidex, ← hexmem, ← hmemwb]
  rfl

/-- An instruction performed with nothing in flight leaves nothing in flight. -/
theorem State.performInst_eq_restart {s : State} (hq : s.quiet = true) (i : Inst) (pred : Word) :
    s.performInst i pred = ((s.noteReads i).perform (s.issueOf i pred)).restart (s.issueOf i pred).follower := by
  obtain ⟨-, -, hidex, hexmem, hmemwb⟩ := s.quiet_iff.1 hq
  rw [State.performInst, State.noteReads_eq]
  refine State.setPc_eq_restart ?_ ?_ ?_ _
  exacts [hidex, hexmem, hmemwb]

/-! ## Decode's cases (50_pipeline.md R331) -/

theorem State.decodeCase_eq_countdown_iff (s : State) :
    s.decodeCase = .countdown ↔ s.irqActive = true ∧ s.irqCnt - 1 ≠ 0 := by
  unfold State.decodeCase
  split_ifs <;> simp_all

theorem State.decodeCase_eq_irqJump_iff (s : State) :
    s.decodeCase = .irqJump ↔ s.irqActive = true ∧ s.irqCnt - 1 = 0 := by
  unfold State.decodeCase
  split_ifs <;> simp_all

theorem State.decodeCase_eq_issue_iff (s : State) :
    s.decodeCase = .issue ↔ s.irqActive = false ∧ squashes s.idex = false ∧ s.hazard = false := by
  unfold State.decodeCase
  split_ifs <;> simp_all

theorem State.decodeCase_eq_squash_iff (s : State) :
    s.decodeCase = .squash ↔ s.irqActive = false ∧ squashes s.idex = true := by
  unfold State.decodeCase
  split_ifs <;> simp_all

/-- With no countdown, Decode squashes, stalls or issues. -/
theorem State.decodeCase_of_idle {s : State} (h : s.irqActive = false) :
    s.decodeCase = .squash ∨ s.decodeCase = .hazard ∨ s.decodeCase = .issue := by
  rw [s.decodeCase_eq_squash_iff, s.decodeCase_eq_hazard_iff, s.decodeCase_eq_issue_iff]
  cases squashes s.idex <;> cases s.hazard <;> simp [h]

theorem State.issuesProgramWord_iff (s : State) :
    s.issuesProgramWord = true ↔ s.decodeCase = .issue ∧ s.ifid ≠ IfId.restart s.pcF := by
  simp [State.issuesProgramWord]

/-! ## A bubble (50_pipeline.md R330, R331) -/

/-- A squash and a hazard are cycles that only let what is in flight go on. -/
theorem commit_eq_drainCycle {s : State} (h : s.decodeCase = .squash ∨ s.decodeCase = .hazard) :
    commit s (decodeOut s) = drainCycle s := by
  obtain h | h := h
  · obtain ⟨hirq, hsquash⟩ := s.decodeCase_eq_squash_iff.1 h
    simp [drainCycle, decodeOut, h, hirq, hsquash]
  · obtain ⟨hirq, hsquash, -⟩ := s.decodeCase_eq_hazard_iff.1 h
    simp [drainCycle, decodeOut, h, hirq, hsquash]

theorem flush_drainCycle (s : State) : (drainCycle s).flush = s.flush := by
  rw [State.flush_eq_completed, State.flush_eq_completed, completed_drainCycle]

/-! ## An issue (50_pipeline.md R325, R326, R331) -/

theorem State.hazard_eq_false_iff (s : State) :
    s.hazard = false ↔ (hasRs1 s.inDecode.fmt = true → operandSource s s.inDecode.rs1 ≠ .unresolved)
      ∧ (hasRs2 s.inDecode.fmt = true → operandSource s s.inDecode.rs2 ≠ .unresolved) := by
  simp [State.hazard]

/-- An operand that is read only if `reads` holds, and is resolved if it is read. -/
theorem operand_eq_flush {s : State} {r : Reg} {reads : Bool}
    (h : reads = true → operandSource s r ≠ .unresolved) :
    (if reads then operandValue s r else 0#32) = (if reads then s.flush.readReg r else 0#32)
      ∧ (reads && operandUnwritten s r) = (reads && s.flush.unwritten r) := by
  cases reads with
  | false => exact ⟨rfl, rfl⟩
  | true =>
    obtain ⟨hvalue, hunwritten⟩ := operandForwarding s r (h rfl)
    rw [hvalue, hunwritten]
    exact ⟨rfl, rfl⟩

section

variable {s : State} (hissue : s.decodeCase = .issue)
include hissue

theorem currentFetchPc_of_issue : currentFetchPc s (decodeOut s).stall = s.npcF := by
  obtain ⟨-, hsquash, -⟩ := s.decodeCase_eq_issue_iff.1 hissue
  have hstall : (decodeOut s).stall = false := by simp [decodeOut, hissue]
  have hfetch := (commit_fetch_of_not_stalled (s := s) (d := decodeOut s) (by rw [hstall, Bool.false_and])).1
  rwa [hsquash] at hfetch

/-- The word is issued as from a state in which everything before it has completed. -/
theorem State.issue_eq_issueOf (hpc : s.ifid.pc = s.pcF) : s.issue = s.flush.issueOf s.inDecode s.ifid.pred := by
  obtain ⟨-, hsquash, hhazard⟩ := s.decodeCase_eq_issue_iff.1 hissue
  obtain ⟨hrs1, hrs2⟩ := s.hazard_eq_false_iff.1 hhazard
  simp only [State.issue, (operand_eq_flush hrs1).1, (operand_eq_flush hrs2).1, State.issueOf, State.flush_pcF,
    IdEx.nextPc, hsquash, hpc]
  rfl

/-- The report is made on the same ground. -/
theorem State.decoded_of_issue : s.flush.decoded (decodeOut s) = s.flush.noteReads s.inDecode := by
  obtain ⟨hirq, -, hhazard⟩ := s.decodeCase_eq_issue_iff.1 hissue
  obtain ⟨hrs1, hrs2⟩ := s.hazard_eq_false_iff.1 hhazard
  rw [State.noteReads_eq, State.noteReads_unwrittenRead, State.decoded, decodeOut, hissue]
  simp only [(operand_eq_flush hrs1).2, (operand_eq_flush hrs2).2, ← s.flush_irqCnt,
    ← s.flush_irqActive.trans hirq]

/-- What an issue adds to what the interpreter sees: the word performed, and Fetch where the pipeline then has it. -/
theorem flush_of_issue (hpc : s.ifid.pc = s.pcF) :
    (commit s (decodeOut s)).flush =
      ((s.flush.noteReads s.inDecode).perform (s.flush.issueOf s.inDecode s.ifid.pred)).restart
        ((s.flush.issueOf s.inDecode s.ifid.pred).nextPc s.npcF) := by
  rw [flush_commit, decodeOut_idex_of_issue hissue, currentFetchPc_of_issue hissue, State.decoded_of_issue hissue,
    State.issue_eq_issueOf hissue hpc]

end

/-! ## The NOP from which Fetch restarts (70_reset_and_hazards.md R503, R504) -/

theorem decodeRecord_nopWord_effectless : (decodeRecord nopWord).effectless = true := by decide

theorem State.noteReads_nopWord (s : State) : s.noteReads (decodeRecord nopWord) = s := by
  have hrs1 : (decodeRecord nopWord).rs1 = 0#5 := by decide
  have hrs2 : hasRs2 (decodeRecord nopWord).fmt = false := by decide
  rw [State.noteReads_eq, State.noteReads_unwrittenRead, hrs1, hrs2, State.unwritten_zero, Bool.and_false,
    Bool.false_and, Bool.or_false, Bool.or_false]

theorem flush_of_issue_restart {s : State} (hp : s.PipeOk) (hissue : s.decodeCase = .issue)
    (hnop : s.ifid = IfId.restart s.pcF) : (commit s (decodeOut s)).flush = s.flush := by
  obtain ⟨-, hsquash, -⟩ := s.decodeCase_eq_issue_iff.1 hissue
  have hword : s.ifid.word = nopWord := by rw [hnop]; rfl
  have hnpc : s.npcF = s.flush.pcF := by
    rw [hp.nextPc, s.flush_pcF, IdEx.nextPc, hsquash, hnop]
    rfl
  have heffectless := decodeRecord_nopWord_effectless
  rw [flush_of_issue hissue hp.currentPc, State.inDecode, hword, State.noteReads_nopWord,
    State.perform_of_effectless heffectless, IdEx.nextPc_of_effectless heffectless, hnpc]
  exact State.restart_of_quiet s.flush_quiet

/-- A cycle that issues no word of the program adds nothing. -/
theorem flush_of_not_issuesProgramWord {s : State} (hp : s.PipeOk) (hirq : s.irqActive = false)
    (h : s.issuesProgramWord = false) : (commit s (decodeOut s)).flush = s.flush := by
  obtain hc | hc | hc := State.decodeCase_of_idle hirq
  · rw [commit_eq_drainCycle (.inl hc), flush_drainCycle]
  · rw [commit_eq_drainCycle (.inr hc), flush_drainCycle]
  · have hnop : s.ifid = IfId.restart s.pcF := by
      by_contra hne
      simp [s.issuesProgramWord_iff.2 ⟨hc, hne⟩] at h
    exact flush_of_issue_restart hp hc hnop

/-! ## A word of the program (50_pipeline.md R350, R351) -/

/-- Execute corrects a wrong prediction, and the prediction for any other word is the next word. -/
theorem IdEx.nextPc_pred {d : IdEx} (hirqj : d.irqj = false) (hpred : d.inst.isCf = false → d.pred = d.pc + 4#32) :
    d.nextPc d.pred = d.follower := by
  unfold IdEx.nextPc IdEx.follower squashes
  cases hcf : d.inst.isCf with
  | false => simp [hpred hcf]
  | true => by_cases h : d.inst.alu d.a d.b d.pc = d.pred <;> simp [hirqj, h]

theorem State.nextPc_issueOf {s : State} {i : Inst} {pred : Word} (h : i.isCf = false → pred = s.pcF + 4#32) :
    (s.issueOf i pred).nextPc pred = (s.issueOf i pred).follower :=
  IdEx.nextPc_pred (d := s.issueOf i pred) rfl h

theorem State.flush_fetchWord_of_coherent {s : State} (h : s.fetchCoherent = true) :
    s.flush.fetchWord = s.ifid.word := (of_decide_eq_true h).symm

theorem runInstruction_of_decode_ok {s : State} {i : Instr} (hirq : s.irqActive = false)
    (h : decode s.flush.fetchWord = .ok i) : runInstruction s = exec i s.flush := by
  simp [runInstruction, hirq, h]

theorem runInstruction_refused_iff (s : State) (r : Refusal) :
    runInstruction s = .refused r ↔
      s.irqActive = false ∧ ∃ c, decode s.flush.fetchWord = .error c ∧ r = .reservedEncoding c := by
  cases ha : s.irqActive with
  | true => simp [runInstruction, ha]
  | false => cases hd : decode s.flush.fetchWord <;> simp [runInstruction, ha, hd, exec_ne_refused, eq_comm (a := r)]

/-- A cycle that issues a word of the program is one step of the interpreter. -/
theorem runInstruction_of_issuesProgramWord {s : State} {i : Instr} (hp : s.PipeOk)
    (hword : s.issuesProgramWord = true) (hcoherent : s.fetchCoherent = true) (hi : decode s.ifid.word = .ok i) :
    runInstruction s = .next (commit s (decodeOut s)).flush := by
  obtain ⟨hissue, hne⟩ := s.issuesProgramWord_iff.1 hword
  obtain ⟨hirq, hsquash, -⟩ := s.decodeCase_eq_issue_iff.1 hissue
  have hsequential : (decodeRecord s.ifid.word).isCf = false → s.ifid.pred = s.ifid.pc + 4#32 := fun hcf =>
    (hp.sequential.resolve_left hne).resolve_left fun hop => by simp [decodeRecord_isCf hop] at hcf
  have hpc : s.flush.pcF = s.ifid.pc := by
    rw [s.flush_pcF, IdEx.nextPc, hsquash, hp.currentPc]
    rfl
  rw [← hpc] at hsequential
  rw [runInstruction_of_decode_ok hirq (by rw [State.flush_fetchWord_of_coherent hcoherent, hi]),
    exec_eq_performInst (s.flush_irqActive.trans hirq) hi s.ifid.pred, State.performInst_eq_restart s.flush_quiet,
    flush_of_issue hissue hp.currentPc, hp.nextPc, State.inDecode,
    State.nextPc_issueOf hsequential]

theorem exists_decode_of_cycle_next {s t : State} (h : cycle s = .next t) (hissue : s.decodeCase = .issue) :
    ∃ i, decode s.ifid.word = .ok i := by
  cases hd : decode s.ifid.word with
  | ok i => exact ⟨i, rfl⟩
  | error c =>
    have hnone := ((cycle_next_iff s t).1 h).1
    rw [(s.issuesReserved_eq_some c).2 ⟨hissue, hd⟩] at hnone
    cases hnone

/-- Settles O34: each case of Decode adds to the flush what the interpreter does. -/
theorem cycleRefinesInterpreter : Obligations.CycleRefinesInterpreter := by
  intro s hp hirq
  refine ⟨fun t h hno => ?_, fun t h hword hcoherent => ?_, fun r h hcoherent => ?_⟩
  · obtain ⟨-, rfl⟩ := (cycle_next_iff s t).1 h
    exact flush_of_not_issuesProgramWord hp hirq hno
  · obtain ⟨i, hi⟩ := exists_decode_of_cycle_next h (s.issuesProgramWord_iff.1 hword).1
    obtain ⟨-, rfl⟩ := (cycle_next_iff s t).1 h
    exact runInstruction_of_issuesProgramWord hp hword hcoherent hi
  · obtain ⟨-, c, hc, rfl⟩ := (cycle_refused_iff_decode s r).1 h
    exact (runInstruction_refused_iff s _).2 ⟨hirq, c, by rw [State.flush_fetchWord_of_coherent hcoherent, hc], rfl⟩

end Sys2Proof.Machine

/-! SUPPORT. Runs of the pipeline: what every cycle keeps of the fetch registers, ID/EX and the countdown, the run of
the interpreter that a run of cycles is (50_pipeline.md R350), and the predictor, on which no result depends (R345). -/

namespace Sys2Proof.Machine

/-! ## What every cycle keeps (10_state.md R36, R48) -/

/-- Fetch predicts the next word for every word that transfers no control (50_pipeline.md R336). -/
theorem fetchAt_sequential (s : State) (g : Signals) (pc : Word) :
    isCfOpcode (opcodeOf (fetchAt s g pc).word) = true ∨ (fetchAt s g pc).pred = (fetchAt s g pc).pc + 4#32 := by
  cases h : isCfOpcode (opcodeOf (fetchAt s g pc).word) with
  | true => exact .inl rfl
  | false =>
    simp only [isCfOpcode, Bool.or_eq_false_iff, beq_eq_false_iff_ne, fetchAt] at h
    simp [fetchAt, predictNext, h]

/-- The fetch registers hang together after every cycle, whatever Decode stalls (R335). -/
theorem fetch_registers_of_commit {s : State} (hp : s.PipeOk) (d : DecodeOut) :
    let t := commit s d
    t.ifid.pc = t.pcF ∧ t.npcF = t.ifid.pred
      ∧ (t.ifid = IfId.restart t.pcF ∨ isCfOpcode (opcodeOf t.ifid.word) = true ∨ t.ifid.pred = t.ifid.pc + 4#32) := by
  cases hstall : (d.stall && !squashes s.idex) with
  | true =>
    obtain ⟨hifid, hpc, hnpc⟩ := commit_fetch_of_stalled hstall
    simp only [hifid, hpc, hnpc]
    exact ⟨hp.currentPc, hp.nextPc, hp.sequential⟩
  | false =>
    obtain ⟨-, hifid, hnpc⟩ := commit_fetch_of_not_stalled hstall
    exact ⟨hifid ▸ rfl, hnpc, .inr (hifid ▸ fetchAt_sequential s (signals s) _)⟩

/-- What Decode writes into ID/EX: the issued word, the IRQ jump or a bubble (R331). -/
theorem decodeOut_idex (s : State) :
    (s.decodeCase = .issue ∧ (decodeOut s).idex = s.issue)
      ∨ (s.decodeCase = .irqJump ∧ (decodeOut s).idex = irqJump s.params (signals s).retNow)
      ∨ (decodeOut s).idex = s.bubble := by
  cases h : s.decodeCase <;> simp [decodeOut, h]

theorem idex_prediction_of_cycle (s : State) (hp : s.PipeOk) :
    let t := commit s (decodeOut s)
    (t.idex.inst.isCf = true → t.idex.irqj = false → t.idex.pred = t.pcF)
      ∧ (t.idex.irqj = true → t.idex.inst.isCf = true) := by
  dsimp only
  rw [commit_idex, commit_pcF]
  obtain ⟨hissue, hidex⟩ | ⟨-, hidex⟩ | hidex := decodeOut_idex s <;> rw [hidex]
  · exact ⟨fun _ _ => hp.nextPc.symm.trans (currentFetchPc_of_issue hissue).symm, nofun⟩
  · exact ⟨fun _ hirqj => (nomatch hirqj), fun _ => rfl⟩
  · exact ⟨fun hcf => (nomatch hcf), fun hirqj => (nomatch hirqj)⟩

/-- The countdown's registers after a cycle (60_exceptions.md R413). -/
theorem countdown_registers_of_cycle (s : State) (hp : s.PipeOk) :
    let t := commit s (decodeOut s)
    (t.irqActive = true → t.retAddr = t.pcF ∧ 1 ≤ t.irqCnt) ∧ (t.irqActive = false → t.irqCnt = 0)
      ∧ t.irqCnt ≤ s.irqCnt := by
  dsimp only
  rw [commit_irqActive, commit_irqCnt, commit_retAddr, commit_pcF]
  cases hcase : s.decodeCase with
  | countdown =>
    obtain ⟨hirq, hcnt⟩ := s.decodeCase_eq_countdown_iff.1 hcase
    have hret : (signals s).retNow = s.idex.nextPc s.pcF := by
      simp only [signals, IdEx.nextPc, hirq, Bool.and_true, hp.returnPc hirq]
    simp only [decodeOut, hcase, currentFetchPc_held]
    exact ⟨fun _ => ⟨hret, by omega⟩, nofun, by omega⟩
  | irqJump =>
    obtain ⟨-, hcnt⟩ := s.decodeCase_eq_irqJump_iff.1 hcase
    simp only [decodeOut, hcase]
    exact ⟨nofun, fun _ => hcnt, by omega⟩
  | squash | hazard | issue =>
    have hirq : s.irqActive = false := by
      rw [Bool.eq_false_iff, ne_eq, s.irqActive_iff, hcase]
      simp
    simp only [decodeOut, hcase]
    exact ⟨nofun, fun _ => hp.countIdle hirq, le_refl _⟩

theorem pipeOk_of_cycle {s t : State} (hp : s.PipeOk) (h : cycle s = .next t) : t.PipeOk := by
  obtain ⟨-, rfl⟩ := (cycle_next_iff s t).1 h
  obtain ⟨hcurrent, hnext, hsequential⟩ := fetch_registers_of_commit hp (decodeOut s)
  obtain ⟨hpredicted, hmark⟩ := idex_prediction_of_cycle s hp
  obtain ⟨hrunning, hidle, hcnt⟩ := countdown_registers_of_cycle s hp
  have hbound : (commit s (decodeOut s)).irqCnt ≤ (commit s (decodeOut s)).params.irqDrain := by
    rw [commit_params]
    exact hcnt.trans hp.countBound
  exact ⟨hcurrent, hnext, hsequential, hpredicted, hmark, fun hirq => (hrunning hirq).1,
    fun hirq => (hrunning hirq).2, hidle, hbound⟩

/-- No cycle starts a countdown. -/
theorem irqActive_of_cycle {s t : State} (h : cycle s = .next t) (hirq : s.irqActive = false) :
    t.irqActive = false := by
  obtain ⟨-, rfl⟩ := (cycle_next_iff s t).1 h
  obtain hc | hc | hc := State.decodeCase_of_idle hirq <;> simp [decodeOut, hc]

/-! ## A run (50_pipeline.md R350) -/

theorem runInstruction_flush (s : State) : runInstruction s.flush = runInstruction s := by
  unfold runInstruction
  rw [State.flush_of_quiet _ s.flush_quiet]

theorem instructions_succ {k : Nat} {s u : State} (h : runInstruction s = .next u) :
    instructions (k + 1) s = instructions k u := by
  simp [instructions, h]

/-- Settles O35: by induction on the cycles, each of which is an instruction or none. -/
theorem pipelineRunRefinesInterpreterRun : Obligations.PipelineRunRefinesInterpreterRun := by
  intro n
  induction n with
  | zero =>
    intro s t _ _ _ h
    obtain rfl := Host.Outcome.next.inj h
    exact ⟨0, le_refl 0, rfl⟩
  | succ n ih =>
    intro s t hp hirq hcoherent h
    obtain ⟨u, hcycle, hrest⟩ := (cycles_succ_next_iff n s t).1 h
    obtain ⟨hnone, hone, -⟩ := cycleRefinesInterpreter s hp hirq
    obtain ⟨hfetched, hcoherent⟩ := hcoherent
    obtain ⟨k, hk, hrun⟩ :=
      ih u t (pipeOk_of_cycle hp hcycle) (irqActive_of_cycle hcycle hirq) (hcoherent u hcycle) hrest
    cases hword : s.issuesProgramWord with
    | false => exact ⟨k, by omega, hnone u hcycle hword ▸ hrun⟩
    | true =>
      have hstep : runInstruction s.flush = .next u.flush :=
        (runInstruction_flush s).trans (hone u hcycle hword (hfetched hword))
      exact ⟨k + 1, by omega, (instructions_succ hstep).trans hrun⟩

/-! ## The predictor (50_pipeline.md R345) -/

/-- `s` with another content of the predictor. -/
def State.withPredictor (s : State) (ctr : List (Nat × BitVec 2)) (hist : List (Nat × BitVec 8)) : State :=
  { s with ctr := ctr, hist := hist }

/-- The states differ in the content of the predictor only. -/
def SameButPredictor (s t : State) : Prop := ∃ ctr hist, t = s.withPredictor ctr hist

section

variable {s t : State} (h : SameButPredictor s t)
include h

theorem SameButPredictor.flush : SameButPredictor s.flush t.flush := by
  obtain ⟨ctr, hist, rfl⟩ := h
  rw [State.flush_eq_completed, State.flush_eq_completed]
  exact ⟨_, _, rfl⟩

theorem SameButPredictor.takeInterrupt : SameButPredictor s.takeInterrupt t.takeInterrupt := by
  obtain ⟨ctr, hist, rfl⟩ := h
  refine ⟨ctr, hist, ?_⟩
  unfold State.takeInterrupt State.writeReg
  by_cases hlink : s.params.irqLink = 0#5
  · simp [State.withPredictor, hlink, State.setPc]
  · simp [State.withPredictor, hlink, State.setPc]

theorem SameButPredictor.performInst (i : Inst) (pred : Word) :
    SameButPredictor (s.performInst i pred) (t.performInst i pred) := by
  obtain ⟨ctr, hist, rfl⟩ := h
  rw [State.performInst, State.performInst, State.noteReads_eq, State.noteReads_eq (s.withPredictor ctr hist),
    State.noteReads_unwrittenRead, State.noteReads_unwrittenRead]
  exact ⟨_, _, rfl⟩

theorem SameButPredictor.irqActive : t.irqActive = s.irqActive := by
  obtain ⟨ctr, hist, rfl⟩ := h
  rfl

theorem SameButPredictor.fetchWord : t.fetchWord = s.fetchWord := by
  obtain ⟨ctr, hist, rfl⟩ := h
  rfl

theorem SameButPredictor.runInstruction_next {u : State} (hu : runInstruction s = .next u) :
    ∃ v, runInstruction t = .next v ∧ SameButPredictor u v := by
  have hirq : t.flush.irqActive = s.flush.irqActive := h.flush.irqActive
  have hword : t.flush.fetchWord = s.flush.fetchWord := h.flush.fetchWord
  obtain ⟨ha, rfl⟩ | ⟨ha, i, hi, hexec⟩ := (runInstruction_next_iff s u).1 hu
  · exact ⟨_, (runInstruction_next_iff t _).2 (.inl ⟨hirq.trans ha, rfl⟩), h.flush.takeInterrupt⟩
  · obtain rfl := Host.Outcome.next.inj ((exec_eq_performInst ha hi 0#32).symm.trans hexec)
    rw [← hword] at hi ⊢
    have hexec' := exec_eq_performInst (hirq.trans ha) hi 0#32
    exact ⟨_, (runInstruction_next_iff t _).2 (.inr ⟨hirq.trans ha, i, hi, hexec'⟩), h.flush.performInst _ _⟩

theorem SameButPredictor.runInstruction_refused {r : Refusal} (hr : runInstruction s = .refused r) :
    runInstruction t = .refused r := by
  rw [runInstruction_refused_iff] at hr ⊢
  rwa [h.irqActive, h.flush.fetchWord]

end

/-- Settles O36: the flush, the interrupt entry and an instruction performed differ in the predictor alone. -/
theorem predictorNeverChangesResults : Obligations.PredictorNeverChangesResults := by
  intro s ctr hist
  have h : SameButPredictor s (s.withPredictor ctr hist) := ⟨ctr, hist, rfl⟩
  refine ⟨fun t ht => ?_, fun r hr => h.runInstruction_refused hr⟩
  obtain ⟨v, hv, ctr', hist', rfl⟩ := h.runInstruction_next ht
  exact ⟨ctr', hist', hv⟩

end Sys2Proof.Machine

/-! SUPPORT. Single cycles of the pipeline: stalls and redirects (50_pipeline.md R330, R331, R337), the predicted next
PC (R336), and memory as a cycle leaves it for its fetch (R302, R311). -/

namespace Sys2Proof.Machine

/-! ## After a bubble (R330, R337) -/

/-- A bubble in Execute squashes nothing and keeps no operand back, so Decode issues. -/
theorem State.decodeCase_of_bubble {s : State} (hirq : s.irqActive = false) (h : s.idex.inst = Inst.bubble) :
    s.decodeCase = .issue := by
  have hwrites : ∀ r, s.idex.inst.writes r = false := fun r => by rw [h]; rfl
  have hsource : ∀ r, operandSource s r ≠ .unresolved := fun r => by
    by_cases hr : r = 0#5
    · simp [operandSource, hr]
    · rw [operandSource_of_ne_zero hr, hwrites]
      cases s.exmem.inst.writes r <;> cases s.memwb.inst.writes r <;> simp
  refine s.decodeCase_eq_issue_iff.2 ⟨hirq, squashes_of_not_isCf (by rw [h]; rfl), ?_⟩
  exact s.hazard_eq_false_iff.2 ⟨fun _ => hsource _, fun _ => hsource _⟩

/-- No cycle is refused in which Decode does not issue (R333). -/
theorem cycle_of_decodeCase_ne_issue {s : State} (h : s.decodeCase ≠ .issue) :
    cycle s = .next (commit s (decodeOut s)) :=
  (cycle_next_iff s _).2
    ⟨Option.eq_none_iff_forall_ne_some.2 fun c hc => h ((s.issuesReserved_eq_some c).1 hc).1, rfl⟩

/-- Settles O38: the hazard's bubble leaves Decode nothing to wait for. -/
theorem hazardStallLastsOneCycle : Obligations.HazardStallLastsOneCycle := by
  intro s hirq hsquash I hhazard
  have hcase : s.decodeCase = .hazard := by
    refine s.decodeCase_eq_hazard_iff.2 ⟨hirq, hsquash, ?_⟩
    simpa [State.hazard, State.inDecode] using hhazard
  have hidex : (commit s (decodeOut s)).idex = s.bubble := decodeOut_idex_of_squash_or_hazard (.inr hcase)
  obtain ⟨hifid, hpc, hnpc⟩ :=
    commit_fetch_of_stalled ((decodeOut_stall_unsquashed_iff s).2 (.inl hcase))
  refine ⟨_, cycle_of_decodeCase_ne_issue (by simp [hcase]), hidex, hpc, hnpc, hifid,
    State.decodeCase_of_bubble ?_ (by rw [hidex]; rfl)⟩
  simp [decodeOut, hcase]

/-- Settles O39: the squash's bubble lets Decode issue the word Fetch read at the target in the same cycle. -/
theorem mispredictionRecovery : Obligations.MispredictionRecovery := by
  intro s hirq hcf target
  refine ⟨fun hwrong => ?_, fun hirqj htarget hhazard => ?_⟩
  · have hsquash : squashes s.idex = true := by simpa [squashes, hcf] using hwrong
    have hcase := s.decodeCase_eq_squash_iff.2 ⟨hirq, hsquash⟩
    have hidex : (commit s (decodeOut s)).idex = s.bubble := decodeOut_idex_of_squash_or_hazard (.inl hcase)
    obtain ⟨hpc, hifid, -⟩ :=
      commit_fetch_of_not_stalled (s := s) (d := decodeOut s) (by rw [hsquash, Bool.not_true, Bool.and_false])
    rw [hsquash, if_pos rfl] at hpc
    rw [hpc] at hifid
    refine ⟨_, cycle_of_squashes hsquash, by rw [hidex]; rfl, hpc, by rw [hifid]; rfl, ?_,
      State.decodeCase_of_bubble (by simp [decodeOut, hcase]) (by rw [hidex]; rfl)⟩
    rw [hifid, commit_params, commit_mem]
    rfl
  · have hsquash : squashes s.idex = false := by simpa [squashes, hcf, hirqj] using htarget
    exact s.decodeCase_eq_issue_iff.2 ⟨hirq, hsquash, hhazard⟩

/-! ## The predicted next PC (R336) -/

theorem predictNext_of_jal {w : Word} (h : opcodeOf w = 0b1101111#7) (p : Params) (ctr : List (Nat × BitVec 2))
    (hist : List (Nat × BitVec 8)) (pc : Word) : predictNext p ctr hist w pc = pc + sext21 (immJOf w) := by
  simp [predictNext, h]

theorem predictNext_of_jalr {w : Word} (h : opcodeOf w = 0b1100111#7) (p : Params) (ctr : List (Nat × BitVec 2))
    (hist : List (Nat × BitVec 8)) (pc : Word) : predictNext p ctr hist w pc = pc + sext12 (immIOf w) := by
  simp [predictNext, h]

theorem alu_decodeRecord_of_jal {w : Word} (h : opcodeOf w = 0b1101111#7) (a b pc : Word) :
    (decodeRecord w).alu a b pc = pc + sext21 (immJOf w) := by
  rw [decodeRecord_of_format (f := .J) h rfl]
  rfl

theorem alu_decodeRecord_of_jalr {w : Word} (h : opcodeOf w = 0b1100111#7) (a b pc : Word) :
    (decodeRecord w).alu a b pc = jalrTarget a (sext12 (immIOf w)) := by
  rw [decodeRecord_of_format (f := .I) h rfl]
  rfl

theorem State.issue_a_of_jalr {s : State} (h : opcodeOf s.ifid.word = 0b1100111#7) :
    s.issue.a = operandValue s (rs1Of s.ifid.word) := by
  rw [State.issue, State.inDecode, decodeRecord_of_format (f := .I) h rfl]
  rfl

theorem decodeRecord_not_isCf {w : Word} (h : isCfOpcode (opcodeOf w) = false) : (decodeRecord w).isCf = false := by
  simp only [isCfOpcode, Bool.or_eq_false_iff] at h
  simp [Inst.isCf, Inst.isBranch, Inst.isJal, Inst.isJalr, decodeRecord, h]

/-- An issued word is redirected exactly when it transfers control elsewhere than predicted (R317). -/
theorem squashes_issue (s : State) :
    squashes s.issue = (s.inDecode.isCf && decide (s.inDecode.alu s.issue.a s.issue.b s.ifid.pc ≠ s.ifid.pred)) := rfl

/-- Settles O40: Fetch predicts by opcode, and an issued word's target is compared with that prediction. -/
theorem jumpPredictions : Obligations.JumpPredictions := by
  intro s0 pc F w op predicted
  refine ⟨rfl, fun s h hmoves hpc => ?_, fun s t hF hissue h => ?_⟩
  · obtain ⟨-, rfl⟩ := (cycle_next_iff s0 s).1 h
    have hstall : ((decodeOut s0).stall && !squashes s0.idex) = false := by
      obtain h | h := hmoves <;> simp [h]
    obtain ⟨-, hifid, hnpc⟩ := commit_fetch_of_not_stalled hstall
    have hat : (commit s0 (decodeOut s0)).pcF = pc := by rw [← hpc, hifid]; rfl
    rw [hat] at hifid
    refine ⟨hifid, ?_⟩
    rw [hnpc, hifid]
    rfl
  · obtain ⟨-, rfl⟩ := (cycle_next_iff s t).1 h
    have hword : s.ifid.word = w := by rw [hF]
    have hpc : s.ifid.pc = pc := by rw [hF]; rfl
    have hpred : s.ifid.pred = predictNext s0.params (signals s0).ctr (signals s0).hist w pc := by rw [hF]; rfl
    rw [commit_idex, decodeOut_idex_of_issue hissue, squashes_issue, State.inDecode, hword, hpc, hpred]
    refine ⟨fun hop => ?_, fun hop => ?_, fun hop => ?_⟩
    · rw [predictNext_of_jal hop, alu_decodeRecord_of_jal hop, decide_eq_false (not_not_intro rfl), Bool.and_false]
    · rw [predictNext_of_jalr hop, alu_decodeRecord_of_jalr hop, State.issue_a_of_jalr (hword ▸ hop), hword,
        decodeRecord_isCf (by rw [show opcodeOf w = _ from hop]; rfl), Bool.true_and, decide_eq_true_iff]
      rfl
    · rw [decodeRecord_not_isCf hop, Bool.false_and]

/-! ## Memory (R302, R311) -/

theorem signals_mem_of_store {s : State} (h : s.exmem.inst.isStore = true) :
    (signals s).mem = storeValue s.params s.mem s.exmem.inst.funct3 s.exmem.alu s.exmem.b := by
  simp [signals, h]

theorem signals_mem_of_not_store {s : State} (h : s.exmem.inst.isStore = false) : (signals s).mem = s.mem := by
  simp [signals, h]

/-- Settles O43: the store of the stage Memory takes place before Fetch evaluates. -/
theorem fetchReadsThisCyclesMemory : Obligations.FetchReadsThisCyclesMemory := by
  intro s t h E
  obtain ⟨-, rfl⟩ := (cycle_next_iff s t).1 h
  rw [commit_mem]
  refine ⟨fun hno => ⟨signals_mem_of_not_store hno, fun a => ?_⟩,
    fun hlegal hstore e he hf3 => ⟨fun i hi => ?_, fun x hx => ?_⟩, fun ⟨hstall, hsquash⟩ => ?_, fun hmoves => ?_⟩
  · rw [commit_params, commit_mem, signals_mem_of_not_store hno]
  · rw [commit_params, signals_mem_of_store hstore]
    exact readByte_storeValue s.params hlegal s.mem _ e.2 (by rw [hf3]; exact he) _ _ hi
  · rw [commit_params, commit_mem, signals_mem_of_store hstore]
    exact readByte_storeValue_ne s.params s.mem _ e.2 (by rw [hf3]; exact he) _ _ x hx
  · exact (commit_fetch_of_stalled (by rw [hstall, hsquash]; rfl)).1
  · have hstall : ((decodeOut s).stall && !squashes s.idex) = false := by
      obtain h | h := hmoves <;> simp [h]
    obtain ⟨hpc, hifid, -⟩ := commit_fetch_of_not_stalled hstall
    rw [commit_params, hifid, ← hpc]
    exact ⟨rfl, rfl, rfl⟩

end Sys2Proof.Machine

/-! SUPPORT. The predictor's counters and histories (50_pipeline.md R318, R340 to R344). -/

namespace Sys2Proof.Machine

/-! ## One update (R340, R342) -/

theorem toNat_bumpCounter (taken : Bool) (c : BitVec 2) :
    (bumpCounter taken c).toNat = if taken then min 3 (c.toNat + 1) else c.toNat - 1 := by
  revert c
  cases taken <;> decide

theorem toNat_shiftLeft_or_outcome (taken : Bool) (h : BitVec 8) :
    (h <<< 1 ||| (if taken then 1#8 else 0#8)).toNat = (2 * h.toNat + (if taken then 1 else 0)) % 2 ^ 8 := by
  revert h
  cases taken <;> decide

/-- The spec's masks are the model's remainders, as PRED_SIZE is a power of two. -/
theorem predBase_eq_and (p : Params) (a : Word) : a.toNat &&& (p.predSize - 1) = predBase p a :=
  and_memSize_sub_one p a.toNat

theorem predIndex_eq_and (p : Params) (hist : List (Nat × BitVec 8)) (a : Word) :
    (predBase p a + (sparseGet 0#8 hist (predBase p a)).toNat % 4) &&& (p.predSize - 1) = predIndex p hist a :=
  and_memSize_sub_one p _

theorem sparseGet_updateCtr (p : Params) (ctr : List (Nat × BitVec 2)) (hist : List (Nat × BitVec 8)) (a : Word)
    (taken : Bool) (k : Nat) :
    sparseGet 0#2 (updateCtr p ctr hist a taken) k =
      if k = predIndex p hist a then bumpCounter taken (sparseGet 0#2 ctr k) else sparseGet 0#2 ctr k := by
  rw [updateCtr, sparseGet_set]
  split
  · next h => rw [h]
  · rfl

theorem sparseGet_updateHist (p : Params) (hist : List (Nat × BitVec 8)) (a : Word) (taken : Bool) (k : Nat) :
    sparseGet 0#8 (updateHist p hist a taken) k =
      if k = predBase p a then sparseGet 0#8 hist k <<< 1 ||| (if taken then 1#8 else 0#8)
      else sparseGet 0#8 hist k := by
  rw [updateHist, sparseGet_set]
  split
  · next h => rw [h]
  · rfl

/-- Settles O44: Execute's branch updates the entries its address selects, and no other instruction any. -/
theorem predictorUpdate : Obligations.PredictorUpdate := by
  intro s t h
  obtain ⟨-, rfl⟩ := (cycle_next_iff s t).1 h
  dsimp only
  rw [predBase_eq_and, predIndex_eq_and, commit_ctr, commit_hist]
  refine ⟨fun hbranch => ?_, fun hno => by simp [signals, hno]⟩
  have hctr : (signals s).ctr = updateCtr s.params s.ctr s.hist s.idex.pc
      (branchCond s.idex.inst.funct3 s.idex.a s.idex.b) := by simp [signals, hbranch]
  have hhist : (signals s).hist = updateHist s.params s.hist s.idex.pc
      (branchCond s.idex.inst.funct3 s.idex.a s.idex.b) := by simp [signals, hbranch]
  rw [hctr, hhist]
  simp only [sparseGet_updateCtr, sparseGet_updateHist, if_true, toNat_bumpCounter, toNat_shiftLeft_or_outcome,
    true_and]
  exact ⟨fun k hk => if_neg hk, fun k hk => if_neg hk⟩

/-! ## Ten equal outcomes (R344) -/

/-- `n` branches at `a` from reset, all with the same outcome. -/
def trained (p : Params) (a : Word) (taken : Bool) (n : Nat) : State :=
  (fun s : State => s.updatePredictor a taken)^[n] (State.initial p)

theorem trained_succ (p : Params) (a : Word) (taken : Bool) (n : Nat) :
    trained p a taken (n + 1) = (trained p a taken n).updatePredictor a taken :=
  Function.iterate_succ_apply' _ n _

theorem trained_params (p : Params) (a : Word) (taken : Bool) (n : Nat) : (trained p a taken n).params = p := by
  induction n with
  | zero => rfl
  | succ n ih => rw [trained_succ, State.updatePredictor_params, ih]

theorem hist_trained_succ (p : Params) (a : Word) (taken : Bool) (n : Nat) :
    sparseGet 0#8 (trained p a taken (n + 1)).hist (predBase p a) =
      sparseGet 0#8 (trained p a taken n).hist (predBase p a) <<< 1 ||| (if taken then 1#8 else 0#8) := by
  rw [trained_succ, State.updatePredictor_hist, trained_params, sparseGet_updateHist, if_pos rfl]

theorem ctr_trained_succ (p : Params) (a : Word) (taken : Bool) (n k : Nat) :
    sparseGet 0#2 (trained p a taken (n + 1)).ctr k =
      if k = predIndex p (trained p a taken n).hist a then bumpCounter taken (sparseGet 0#2 (trained p a taken n).ctr k)
      else sparseGet 0#2 (trained p a taken n).ctr k := by
  rw [trained_succ, State.updatePredictor_ctr, trained_params, sparseGet_updateCtr]

theorem predIndex_trained {p : Params} {a : Word} {taken : Bool} {n : Nat} {h : BitVec 8}
    (hh : sparseGet 0#8 (trained p a taken n).hist (predBase p a) = h) :
    predIndex p (trained p a taken n).hist a = (predBase p a + h.toNat % 4) % p.predSize := by
  rw [predIndex, hh]

/-- Two taken branches set both history bits that select the counter, and later ones keep them set. -/
theorem hist_trained_taken (p : Params) (a : Word) (n : Nat) :
    (sparseGet 0#8 (trained p a true (n + 2)).hist (predBase p a)).toNat % 4 = 3 := by
  have hlow : ∀ h : BitVec 8, (((h <<< 1 ||| 1#8) <<< 1) ||| 1#8).toNat % 4 = 3 := by decide
  rw [hist_trained_succ, hist_trained_succ]
  exact hlow _

theorem predIndex_trained_taken (p : Params) (a : Word) (n : Nat) :
    predIndex p (trained p a true (n + 2)).hist a = (predBase p a + 3) % p.predSize := by
  rw [predIndex, hist_trained_taken]

/-- Three taken branches on one counter saturate it, and later ones keep it saturated. -/
theorem ctr_trained_taken (p : Params) (a : Word) (n : Nat) :
    sparseGet 0#2 (trained p a true (n + 5)).ctr ((predBase p a + 3) % p.predSize) = 3#2 := by
  have hsaturated : ∀ c, bumpCounter true (bumpCounter true (bumpCounter true c)) = 3#2 := by decide
  have hstep : ∀ m, sparseGet 0#2 (trained p a true (m + 3)).ctr ((predBase p a + 3) % p.predSize) =
      bumpCounter true (sparseGet 0#2 (trained p a true (m + 2)).ctr ((predBase p a + 3) % p.predSize)) := fun m => by
    rw [ctr_trained_succ, predIndex_trained_taken, if_pos rfl]
  rw [hstep (n + 2), hstep (n + 1), hstep n, hsaturated]

/-- Branches not taken leave the history and the counters as reset left them. -/
theorem trained_not_taken (p : Params) (a : Word) (n : Nat) :
    sparseGet 0#8 (trained p a false n).hist (predBase p a) = 0#8
      ∧ ∀ k, sparseGet 0#2 (trained p a false n).ctr k = 0#2 := by
  induction n with
  | zero => exact ⟨rfl, fun _ => rfl⟩
  | succ n ih =>
    obtain ⟨hhist, hctr⟩ := ih
    refine ⟨by rw [hist_trained_succ, hhist]; rfl, fun k => ?_⟩
    rw [ctr_trained_succ, hctr k]
    split <;> rfl

/-- Settles O45: from the third taken branch on one counter is selected, and the ten outcomes saturate it. -/
theorem predictorSaturation : Obligations.PredictorSaturation := by
  intro p a _ i after T N
  have hbase : i < p.predSize := predBase_lt p a
  have hzero : sparseGet 0#8 (trained p a true 0).hist (predBase p a) = 0#8 := rfl
  have hone : sparseGet 0#8 (trained p a true 1).hist (predBase p a) = 1#8 := by rw [hist_trained_succ, hzero]; rfl
  obtain ⟨hhist, hctr⟩ := trained_not_taken p a 10
  refine ⟨?_, predIndex_trained hone, fun n h2 _ => ?_, hist_trained_taken p a 8, ctr_trained_taken p a 5, ?_, hhist,
    hctr _, ?_⟩
  · exact (predIndex_trained hzero).trans (Nat.mod_eq_of_lt hbase)
  · obtain ⟨m, rfl⟩ := Nat.exists_eq_add_of_le' h2
    exact predIndex_trained_taken p a m
  · have hT : sparseGet 0#2 T.ctr (predIndex p T.hist a) = 3#2 :=
      (congrArg _ (predIndex_trained_taken p a 8)).trans (ctr_trained_taken p a 5)
    rw [predict, hT]
    rfl
  · have hN : sparseGet 0#2 N.ctr (predIndex p N.hist a) = 0#2 := hctr _
    rw [predict, hN]
    rfl

end Sys2Proof.Machine

/-! SUPPORT. Progress (50_pipeline.md R352): how many cycles Decode can go without issuing; and the step of the
instruction level, which runs one instruction (R350). -/

namespace Sys2Proof.Machine

/-! ## Runs of cycles -/

theorem cycles_add_next {m n : Nat} {s u t : State} (hm : cycles m s = .next u) (hn : cycles n u = .next t) :
    cycles (m + n) s = .next t := by
  induction m generalizing s with
  | zero =>
    obtain rfl := Host.Outcome.next.inj hm
    rwa [Nat.zero_add]
  | succ m ih =>
    obtain ⟨v, hcycle, hrest⟩ := (cycles_succ_next_iff m s u).1 hm
    rw [Nat.succ_add]
    exact (cycles_succ_next_iff _ s t).2 ⟨v, hcycle, ih hrest⟩

theorem cycles_one (s : State) : cycles 1 s = cycle s := by
  cases h : cycle s <;> simp [cycles, h]

/-! ## How long Decode issues nothing (R330, R331) -/

/-- With no countdown, Decode issues now or after one bubble. -/
theorem issues_within_one_cycle {s : State} (hirq : s.irqActive = false) :
    ∃ k t, k ≤ 1 ∧ cycles k s = .next t ∧ t.decodeCase = .issue := by
  by_cases hissue : s.decodeCase = .issue
  · exact ⟨0, s, by decide, rfl, hissue⟩
  · have hcycle := cycle_of_decodeCase_ne_issue hissue
    have hcase : s.decodeCase = .squash ∨ s.decodeCase = .hazard := by
      obtain hc | hc | hc := State.decodeCase_of_idle hirq
      exacts [.inl hc, .inr hc, absurd hc hissue]
    have hbubble : (commit s (decodeOut s)).idex.inst = Inst.bubble := by
      rw [commit_idex, decodeOut_idex_of_squash_or_hazard hcase]
      rfl
    exact ⟨1, _, le_refl 1, (cycles_one s).trans hcycle,
      State.decodeCase_of_bubble (irqActive_of_cycle hcycle hirq) hbubble⟩

/-- A countdown ends after as many cycles as it has left, with the IRQ jump in ID/EX (60_exceptions.md R413, R414). -/
theorem countdown_ends {n : Nat} {s : State} (hirq : s.irqActive = true) (hcnt : s.irqCnt = n + 1) :
    ∃ t, cycles (n + 1) s = .next t ∧ t.irqActive = false ∧ t.idex.irqj = true := by
  induction n generalizing s with
  | zero =>
    have hcase := s.decodeCase_eq_irqJump_iff.2 ⟨hirq, by omega⟩
    refine ⟨_, (cycles_one s).trans (cycle_of_decodeCase_ne_issue (by simp [hcase])), ?_, ?_⟩ <;>
      simp [decodeOut, hcase, irqJump]
  | succ n ih =>
    have hcase := s.decodeCase_eq_countdown_iff.2 ⟨hirq, by omega⟩
    have hcycle := cycle_of_decodeCase_ne_issue (s := s) (by simp [hcase])
    obtain ⟨t, hrun, ht⟩ :=
      ih (s := commit s (decodeOut s)) (by simp [decodeOut, hcase]) (by simp [decodeOut, hcase, hcnt])
    exact ⟨t, (cycles_succ_next_iff _ s t).2 ⟨_, hcycle, hrun⟩, ht⟩

/-- Settles O46: the countdown's cycles, and at most one bubble after them. -/
theorem progress : Obligations.Progress := by
  intro s hp
  cases hirq : s.irqActive with
  | false =>
    obtain ⟨k, t, hk, hrun, hissue⟩ := issues_within_one_cycle hirq
    exact ⟨k, t, by omega, hrun, hissue⟩
  | true =>
    obtain ⟨n, hn⟩ := Nat.exists_eq_add_of_le' (hp.countRunning hirq)
    have hbound := hp.countBound
    obtain ⟨u, hdrain, hu, -⟩ := countdown_ends hirq hn
    obtain ⟨k, t, hk, hrun, hissue⟩ := issues_within_one_cycle hu
    exact ⟨n + 1 + k, t, by omega, cycles_add_next hdrain hrun, hissue⟩

/-! ## The step of the instruction level (R350) -/

/-- The four bytes from an address on, decoded as one instruction, are the word there (20_memory.md R72, R74). -/
theorem decode_readWord_of_decodeBytes {p : Params} {m : Memory} {a : Word} {i : Instr}
    (h : decodeBytes [readByte p m (a + BitVec.ofNat 32 0), readByte p m (a + BitVec.ofNat 32 1),
      readByte p m (a + BitVec.ofNat 32 2), readByte p m (a + BitVec.ofNat 32 3)] = .ok (i, [])) :
    decode (readWord p m a) = .ok i := by
  have hword : wordOfBytes (readByte p m (a + BitVec.ofNat 32 0)) (readByte p m (a + BitVec.ofNat 32 1))
      (readByte p m (a + BitVec.ofNat 32 2)) (readByte p m (a + BitVec.ofNat 32 3)) = readWord p m a := by
    rw [BitVec.add_zero]
    rfl
  rw [← hword]
  unfold decodeBytes at h
  cases hd : decode (wordOfBytes (readByte p m (a + BitVec.ofNat 32 0)) (readByte p m (a + BitVec.ofNat 32 1))
      (readByte p m (a + BitVec.ofNat 32 2)) (readByte p m (a + BitVec.ofNat 32 3))) <;> simp_all

/-- Settles O26: the bytes are the word that the step fetches. -/
theorem stepRunsTheDecodedInstruction : Obligations.StepRunsTheDecodedInstruction := by
  intro s i hlegal hinbox hpace hirq f M hbytes
  have hstep : step s = exec i f :=
    (step_instruction hlegal hinbox hpace).trans
      (runInstruction_of_decode_ok hirq (decode_readWord_of_decodeBytes hbytes))
  exact ⟨hstep, fun hquiet => hstep.trans (congrArg (exec i) (s.flush_of_quiet hquiet))⟩

end Sys2Proof.Machine

/-! SUPPORT. The interrupt at both levels (60_exceptions.md R412 to R420): the countdown's cycles over what the
interpreter sees, the IRQ jump they end with, the entry as one step, and the return. -/

namespace Sys2Proof.Machine

/-! ## What Decode writes besides ID/EX, moved past other updates -/

theorem State.restart_decoded (s : State) (d : DecodeOut) (pc : Word) :
    (s.decoded d).restart pc = (s.restart pc).decoded d := rfl

theorem State.writeReg_decoded (s : State) (d : DecodeOut) (r : Reg) (v : Word) :
    (s.decoded d).writeReg r v = (s.writeReg r v).decoded d := by
  unfold State.writeReg
  split <;> rfl

/-! ## The return address over a flush (R415; 50_pipeline.md R319) -/

@[simp] theorem State.flush_params (s : State) : s.flush.params = s.params := by
  rw [State.flush_eq_completed]
  rfl

@[simp] theorem State.flush_blockIrq (s : State) : s.flush.blockIrq = s.blockIrq := by
  rw [State.flush_eq_completed]
  rfl

/-- What is in flight corrects the return address in Execute alone. -/
theorem State.flush_retAddr (s : State) : s.flush.retAddr = (signals s).retNow := by
  rw [State.flush_eq_completed]
  rfl

/-- A return address that is the PC is redirected as Fetch is. -/
theorem retNow_eq_flush_pcF {s : State} (hirq : s.irqActive = true) (hret : s.retAddr = s.pcF) :
    (signals s).retNow = s.flush.pcF := by
  simp [signals, IdEx.nextPc, hirq, hret]

/-- `irq()` starts the countdown where none runs (R412). -/
theorem State.irq_eq (s : State) :
    s.irq = { s with
      retAddr   := if s.irqActive then s.retAddr else s.pcF
      irqCnt    := if s.irqActive then s.irqCnt else s.params.irqDrain
      irqActive := true } := by
  unfold State.irq
  cases h : s.irqActive with
  | false => simp
  | true => simp [← h]

/-- Settles O53: while a countdown runs, the return address and the PC are equal and redirected together. -/
theorem returnAddressIsTheNextInstruction : Obligations.ReturnAddressIsTheNextInstruction := by
  intro s hp
  refine ⟨fun hirq => ?_, fun hirq => ?_⟩
  · rw [State.flush_retAddr, retNow_eq_flush_pcF hirq (hp.returnPc hirq)]
  · have hactive : s.irq.irqActive = true := by rw [s.irq_eq]
    have hret : s.irq.retAddr = s.irq.pcF := by simp [s.irq_eq, hirq]
    have hpc : s.irq.flush.pcF = s.flush.pcF := by rw [s.irq_eq, State.flush_pcF, State.flush_pcF]
    exact ⟨hactive, by rw [State.flush_retAddr, retNow_eq_flush_pcF hactive hret, hpc], hpc⟩

/-! ## The IRQ jump (R414) -/

/-- Its displacement is chosen so that it lands at the handler. -/
theorem irqJump_alu (p : Params) (r : Word) :
    (irqJump p r).inst.alu (irqJump p r).a (irqJump p r).b (irqJump p r).pc = p.irqHandler := by
  simp only [irqJump, Inst.alu]
  exact (BitVec.add_comm _ _).trans (BitVec.sub_add_cancel _ _)

theorem irqJump_nextPc (p : Params) (r pc : Word) : (irqJump p r).nextPc pc = p.irqHandler := by
  have hsquash : squashes (irqJump p r) = true := rfl
  rw [IdEx.nextPc, hsquash, if_pos rfl, irqJump_alu]

/-- The link is the return address, 4 past the address the jump is given. -/
theorem irqJump_writeValue (p : Params) (r alu mdata : Word) :
    (irqJump p r).inst.writeValue (irqJump p r).pc alu mdata = r :=
  BitVec.sub_add_cancel r 4#32

/-- Once the countdown is over, the IRQ jump writes the link register and does nothing else but jump. -/
theorem State.perform_irqJump {s : State} {p : Params} (hirq : s.irqActive = false) (r : Word) :
    s.perform (irqJump p r) = s.writeReg p.irqLink r := by
  have hstore : (irqJump p r).inst.isStore = false := rfl
  have hbranch : (irqJump p r).inst.isBranch = false := rfl
  have hlink : s.writeBack (irqJump p r).inst r = s.writeReg p.irqLink r := State.writeBack_of_producer rfl s r
  rw [← hlink]
  simp only [State.perform, irqJump_writeValue, hstore, hbranch, hirq, Bool.and_false]
  rfl

/-! ## The countdown's cycles (R413, R414) -/

/-- A cycle before the last adds nothing to what the interpreter sees, but counts. -/
theorem flush_of_countdown {s : State} (h : s.decodeCase = .countdown) :
    (commit s (decodeOut s)).flush = { s.flush with irqCnt := s.irqCnt - 1 } := by
  have hactive : s.flush.irqActive = true := s.flush_irqActive.trans (s.decodeCase_eq_countdown_iff.1 h).1
  have hout : decodeOut s = { idex := s.bubble, stall := !squashes s.idex, irqCnt := s.irqCnt - 1, irqActive := true,
                              unwritten := false } := by simp [decodeOut, h]
  rw [hout, flush_commit, State.perform_of_effectless Inst.bubble_effectless,
    IdEx.nextPc_of_effectless Inst.bubble_effectless, currentFetchPc_held, ← s.flush_pcF, State.restart_decoded,
    State.restart_of_quiet s.flush_quiet]
  simp only [State.decoded, Bool.or_false, ← hactive]

/-- The last cycle adds the interrupt entry. -/
theorem flush_of_irqJump {s : State} (h : s.decodeCase = .irqJump) :
    (commit s (decodeOut s)).flush = s.flush.takeInterrupt := by
  obtain ⟨-, hcnt⟩ := s.decodeCase_eq_irqJump_iff.1 h
  obtain ⟨-, -, hidex, hexmem, hmemwb⟩ := s.flush.quiet_iff.1 s.flush_quiet
  have hout : decodeOut s = { idex := irqJump s.params s.flush.retAddr, stall := !squashes s.idex, irqCnt := 0,
                              irqActive := false, unwritten := false } := by
    simp [decodeOut, h, hcnt, State.flush_retAddr]
  rw [hout, flush_commit, irqJump_nextPc, State.perform_irqJump rfl, State.writeReg_decoded, State.restart_decoded,
    State.takeInterrupt, State.flush_params, State.setPc_eq_restart (by simpa using hidex) (by simpa using hexmem)
      (by simpa using hmemwb)]
  simp only [State.decoded, Bool.or_false]

/-- Settles O51: a cycle of the countdown is never refused, and what it adds to the flush is known. -/
theorem countdownCycle : Obligations.CountdownCycle := by
  intro s hp hirq
  have hrunning : s.decodeCase = .countdown ∨ s.decodeCase = .irqJump := s.irqActive_iff.1 hirq
  refine ⟨_, cycle_of_decodeCase_ne_issue (by rcases hrunning with h | h <;> simp [h]), ?_, fun hcnt => ?_,
    fun hcnt => ?_⟩
  · rcases hrunning with h | h <;> simp [decodeOut, h]
  · have hcase := s.decodeCase_eq_countdown_iff.2 ⟨hirq, by omega⟩
    refine ⟨?_, ?_, flush_of_countdown hcase⟩ <;> simp [decodeOut, hcase, State.bubble]
  · have hcase := s.decodeCase_eq_irqJump_iff.2 ⟨hirq, by omega⟩
    rw [← retNow_eq_flush_pcF hirq (hp.returnPc hirq)]
    refine ⟨?_, ?_, flush_of_irqJump hcase⟩ <;> simp [decodeOut, hcase]

/-! ## The whole countdown (R416) -/

/-- The entry ends the countdown, whatever is left of it. -/
theorem State.takeInterrupt_withIrqCnt (s : State) (n : Nat) :
    ({ s with irqCnt := n } : State).takeInterrupt = s.takeInterrupt := by
  unfold State.takeInterrupt State.writeReg
  split <;> rfl

theorem params_of_cycle {s t : State} (h : cycle s = .next t) : t.params = s.params := by
  obtain ⟨-, rfl⟩ := (cycle_next_iff s t).1 h
  exact commit_params s _

/-- A countdown ends with the IRQ jump in ID/EX, and all that its cycles add is the entry: the flush stands still, but
for the count, until the last one. -/
theorem interrupt_entry_of_countdown {n : Nat} {s : State} (hp : s.PipeOk) (hirq : s.irqActive = true)
    (hcnt : s.irqCnt = n + 1) :
    ∃ t r, cycles (n + 1) s = .next t ∧ t.irqActive = false ∧ t.idex = irqJump s.params r
      ∧ t.flush = s.flush.takeInterrupt := by
  induction n generalizing s with
  | zero =>
    obtain ⟨t, hcycle, -, -, hlast⟩ := countdownCycle s hp hirq
    obtain ⟨hidle, hidex, hflush⟩ := hlast hcnt
    exact ⟨t, _, (cycles_one s).trans hcycle, hidle, hidex, hflush⟩
  | succ n ih =>
    obtain ⟨u, hcycle, hleft, hrunning, -⟩ := countdownCycle s hp hirq
    obtain ⟨hactive, -, hflush⟩ := hrunning (by omega)
    obtain ⟨t, r, hrun, hidle, hidex, hentry⟩ := ih (pipeOk_of_cycle hp hcycle) hactive (by omega)
    rw [params_of_cycle hcycle] at hidex
    rw [hflush, State.takeInterrupt_withIrqCnt] at hentry
    exact ⟨t, r, (cycles_succ_next_iff _ s t).2 ⟨u, hcycle, hrun⟩, hidle, hidex, hentry⟩

/-- Settles O52: the IRQ jump that ends the countdown redirects Fetch in the next cycle, as every jump does. -/
theorem interruptEntryAfterDrain : Obligations.InterruptEntryAfterDrain := by
  intro s hp hirq
  obtain ⟨n, hn⟩ := Nat.exists_eq_add_of_le' (hp.countRunning hirq)
  obtain ⟨t, r, hrun, hidle, hidex, hentry⟩ := interrupt_entry_of_countdown hp hirq hn
  have hcf : t.idex.inst.isCf = true := by rw [hidex]; rfl
  have hirqj : t.idex.irqj = true := by rw [hidex]; rfl
  obtain ⟨u, hcycle, hbubble, -, hpc, hword, hissue⟩ := (mispredictionRecovery t hidle hcf).1 (.inl hirqj)
  rw [hidex, irqJump_alu] at hpc hword
  exact ⟨t, u, hn ▸ hrun, hidle, hirqj, hentry, hcycle, hbubble, hpc, hword, hissue⟩

/-! ## The entry as one step (R414, R417) -/

theorem step_of_countdown {s : State} (hlegal : s.params.legal = true) (hinbox : s.inbox = [])
    (hpace : s.pace = .instruction) (hirq : s.irqActive = true) : step s = .next s.flush.takeInterrupt :=
  (step_instruction hlegal hinbox hpace).trans
    ((runInstruction_next_iff s _).2 (.inl ⟨s.flush_irqActive.trans hirq, rfl⟩))

/-- Settles O27: the step is the entry from the flush. -/
theorem stepTakesTheInterrupt : Obligations.StepTakesTheInterrupt := by
  intro s hlegal hinbox hpace hirq
  obtain ⟨hlink, hpc, hmem, hpred⟩ := s.flush.takeInterrupt_spec
  rw [s.flush_params] at hlink hpc
  exact ⟨_, step_of_countdown hlegal hinbox hpace hirq, hlink, hpc, hmem, hpred, by simp, by simp, by simp⟩

/-! ## The return (R420) -/

/-- An even address is its own JALR target. -/
theorem jalrTarget_of_even {a : Word} (h : a.getLsbD 0 = false) : jalrTarget a (sext12 0#12) = a := by
  have hmask : ∀ i < 32, (0xFFFFFFFE#32).getLsbD i = decide (i ≠ 0) := by decide
  have hsum : a + sext12 0#12 = a := BitVec.add_zero a
  apply BitVec.eq_of_getLsbD_eq
  intro i hi
  rw [jalrTarget, hsum, BitVec.getLsbD_and, hmask i hi]
  by_cases h0 : i = 0
  · rw [h0, h, Bool.false_and]
  · simp [h0]

/-- A write to x0 leaves every register as it was (10_state.md R31). -/
theorem WritesReg.regsKept {s t : State} {v : Word} (h : WritesReg s t 0#5 v) : RegsKept s t := by
  refine ⟨fun r => ?_, fun r => ?_⟩
  · by_cases hr : r = 0#5
    · rw [h.1, if_pos hr, hr, State.readReg_zero]
    · exact (h.kept_of_ne hr).1
  · by_cases hr : r = 0#5
    · rw [hr, State.unwritten_zero, State.unwritten_zero]
    · exact (h.kept_of_ne hr).2

/-- The entry leaves the return address in the link register. -/
theorem State.takeInterrupt_readReg_link {s : State} (h : s.params.irqLink ≠ 0#5) :
    s.takeInterrupt.readReg s.params.irqLink = s.retAddr := by
  rw [s.takeInterrupt_spec.1.1, if_neg h, if_pos rfl]

/-- Settles O54: JALR reads the return address from the link register and writes to x0 only. -/
theorem returnFromInterrupt : Obligations.ReturnFromInterrupt := by
  intro s f3 hlink heven h
  have htarget : jalrTarget (h.readReg s.params.irqLink) (sext12 0#12) = s.retAddr := by
    rw [State.takeInterrupt_readReg_link hlink, jalrTarget_of_even heven]
  obtain ⟨hreg, hpc, hmem, hpred, hcontrol⟩ :=
    ((h.noteRead s.params.irqLink).opJump_spec 0#5
      (jalrTarget (h.readReg s.params.irqLink) (sext12 0#12))).of_noteRead
  exact ⟨_, rfl, hpc.trans htarget, hreg.regsKept, hmem, hpred, hcontrol⟩

end Sys2Proof.Machine

/-! SUPPORT. The host's actions (60_exceptions.md R405 to R437): the memory-mapped bytes, `interrupt()` in closed form,
the events that call it, what no action changes; and that the core has no fault (R400). -/

namespace Sys2Proof.Machine

/-! ## Memory-mapped bytes (10_state.md R50) -/

theorem Params.offsets_nodup {p : Params} (h : p.legal = true) : p.offsets.Nodup := by
  simp only [Params.legal, Bool.and_eq_true, decide_eq_true_eq] at h
  exact h.2

theorem Params.offset_le_memSize {p : Params} (h : p.legal = true) {k : Nat} (hk : k ∈ p.offsets) :
    k ≤ p.memSize := by
  simp only [Params.legal, Bool.and_eq_true, decide_eq_true_eq, List.all_eq_true] at h
  exact (h.1.2 k hk).2

theorem Params.kIrqEn_ne_kIrqHandled {p : Params} (h : p.legal = true) : p.kIrqEn ≠ p.kIrqHandled := by
  intro he
  have hne := Params.offsets_nodup h
  simp [Params.offsets, he] at hne

/-- Two offsets of legal parameters name two bytes. -/
theorem State.mmioAddress_ne {s : State} (h : s.params.legal = true) {k l : Nat} (hk : k ∈ s.params.offsets)
    (hl : l ∈ s.params.offsets) (hne : k ≠ l) : s.mmioAddress k ≠ s.mmioAddress l := by
  have hkle := Params.offset_le_memSize h hk
  have hlle := Params.offset_le_memSize h hl
  unfold State.mmioAddress
  omega

@[simp] theorem State.mmio_setMmio_self (s : State) (k : Nat) (v : Byte) : (s.setMmio k v).mmio k = v :=
  sparseGet_set_self 0#8 s.mem _ v

/-- Nothing has changed but memory, and in it no byte but those at the offsets `ks`. -/
structure State.WritesMmio (s t : State) (ks : List Nat) : Prop where
  rest   : t = { s with mem := t.mem }
  memory : MemoryKeptBut s t (ks.map s.mmioAddress)

theorem State.setMmio_writesMmio (s : State) (k : Nat) (v : Byte) : s.WritesMmio (s.setMmio k v) [k] where
  rest := rfl
  memory := fun a ha => sparseGet_set_ne 0#8 s.mem _ a v (List.ne_of_not_mem_cons ha)

theorem MemoryKeptBut.trans {s t u : State} {as bs : List Nat} (h : MemoryKeptBut s t as) (h' : MemoryKeptBut t u bs) :
    MemoryKeptBut s u (as ++ bs) := by
  intro k hk
  obtain ⟨has, hbs⟩ := not_or.1 (List.mem_append.not.1 hk)
  exact (h' k hbs).trans (h k has)

theorem MemoryKeptBut.mmio_eq {s t : State} {ks : List Nat} (h : MemoryKeptBut s t (ks.map s.mmioAddress))
    (hparams : t.params = s.params) (hlegal : s.params.legal = true) (hks : ks ⊆ s.params.offsets) {k : Nat}
    (hk : k ∈ s.params.offsets) (hne : k ∉ ks) : t.mmio k = s.mmio k := by
  have haddress : s.mmioAddress k ∉ ks.map s.mmioAddress := by
    intro hmem
    obtain ⟨l, hl, he⟩ := List.mem_map.1 hmem
    exact State.mmioAddress_ne hlegal (hks hl) hk (fun e => hne (e ▸ hl)) he
  unfold State.mmio
  rw [hparams]
  exact h _ haddress

section

variable {s t u : State} {ks ls : List Nat} (h : s.WritesMmio t ks)
include h

theorem State.WritesMmio.params : t.params = s.params := by rw [h.rest]

theorem State.WritesMmio.trans (h' : t.WritesMmio u ls) : s.WritesMmio u (ks ++ ls) where
  rest := by rw [h'.rest, h.rest]
  memory := by
    have haddress : t.mmioAddress = s.mmioAddress := by rw [h.rest]; rfl
    have hmemory := h'.memory
    rw [haddress] at hmemory
    rw [List.map_append]
    exact h.memory.trans hmemory

end

/-! ## `interrupt()` (R410, R412) -/

/-- Has the interrupt in flight been acknowledged (R410)? -/
def State.acknowledged (s : State) : Bool := decide (s.mmio s.params.kIrqHandled = 1#8)

theorem State.observeAcknowledge_eq (s : State) :
    s.observeAcknowledge =
      { s with
        mem := if s.acknowledged then (s.setMmio s.params.kIrqHandled 0#8).mem else s.mem
        blockIrq := s.blockIrq && !s.acknowledged } := by
  unfold State.observeAcknowledge State.acknowledged
  by_cases h : s.mmio s.params.kIrqHandled = 1#8 <;> simp [h]

/-- `interrupt()` in closed form, given whether it delivers. -/
def State.afterInterrupt (s : State) (delivered : Bool) : State :=
  { s with
    mem       := s.observeAcknowledge.mem
    blockIrq  := delivered || (s.blockIrq && !s.acknowledged)
    irqActive := delivered || s.irqActive
    irqCnt    := if delivered && !s.irqActive then s.params.irqDrain else s.irqCnt
    retAddr   := if delivered && !s.irqActive then s.pcF else s.retAddr }

/-- Is an event accepted, once the acknowledge has been observed (R410)? -/
def State.accepts (s : State) : Bool := decide (s.mmio s.params.kIrqEn ≠ 0#8) && !s.blockIrq

theorem State.interrupt_of_accepts {s : State} (h : s.observeAcknowledge.accepts = true) :
    s.interrupt = ({ s.observeAcknowledge with blockIrq := true } : State).irq := by
  simp only [State.accepts, Bool.and_eq_true, decide_eq_true_eq, Bool.not_eq_true'] at h
  exact if_pos h

theorem State.interrupt_of_not_accepts {s : State} (h : s.observeAcknowledge.accepts = false) :
    s.interrupt = s.observeAcknowledge := by
  refine if_neg fun hno => ?_
  simp [State.accepts, hno] at h

theorem State.interrupt_eq_afterInterrupt (s : State) :
    s.interrupt = s.afterInterrupt s.observeAcknowledge.accepts := by
  have hack := s.observeAcknowledge_eq
  cases h : s.observeAcknowledge.accepts with
  | false =>
    rw [State.interrupt_of_not_accepts h, State.afterInterrupt]
    simp only [hack]
    rfl
  | true =>
    rw [State.interrupt_of_accepts h, State.irq_eq, State.afterInterrupt]
    simp only [hack]
    cases s.irqActive <;> rfl

theorem State.observeAcknowledge_params (s : State) : s.observeAcknowledge.params = s.params := by
  rw [s.observeAcknowledge_eq]

theorem State.observeAcknowledge_memory (s : State) :
    MemoryKeptBut s s.observeAcknowledge [s.mmioAddress s.params.kIrqHandled] := by
  unfold State.observeAcknowledge
  split
  · exact (s.setMmio_writesMmio s.params.kIrqHandled 0#8).memory
  · exact fun _ _ => rfl

/-- The acknowledge does not reach IRQ_EN. -/
theorem State.accepts_observeAcknowledge {s : State} (h : s.params.legal = true) :
    s.observeAcknowledge.accepts = s.delivers := by
  have henable : s.observeAcknowledge.mmio s.params.kIrqEn = s.mmio s.params.kIrqEn :=
    s.observeAcknowledge_memory.mmio_eq (ks := [s.params.kIrqHandled]) s.observeAcknowledge_params h
      (by simp [Params.offsets]) (by simp [Params.offsets]) (by simpa using Params.kIrqEn_ne_kIrqHandled h)
  have hflag : s.observeAcknowledge.blockIrq = (s.blockIrq && !s.acknowledged) := by rw [s.observeAcknowledge_eq]
  rw [State.accepts, State.delivers, s.observeAcknowledge_params, henable, hflag, Bool.not_and, Bool.not_not]
  rfl

theorem State.interrupt_eq {s : State} (h : s.params.legal = true) : s.interrupt = s.afterInterrupt s.delivers := by
  rw [s.interrupt_eq_afterInterrupt, State.accepts_observeAcknowledge h]

theorem State.afterInterrupt_coreKept (s : State) (delivered : Bool) : CoreKept s (s.afterInterrupt delivered) := by
  constructor <;> rfl

theorem State.interrupt_coreKept (s : State) : CoreKept s s.interrupt := by
  rw [s.interrupt_eq_afterInterrupt]
  exact s.afterInterrupt_coreKept _

theorem State.interrupt_memory (s : State) : MemoryKeptBut s s.interrupt [s.mmioAddress s.params.kIrqHandled] := by
  rw [s.interrupt_eq_afterInterrupt]
  exact s.observeAcknowledge_memory

/-- An acknowledge is cleared, whether or not the event is delivered. -/
theorem State.interrupt_mmio_handled (s : State) :
    s.interrupt.mmio s.params.kIrqHandled = if s.acknowledged then 0#8 else s.mmio s.params.kIrqHandled := by
  rw [s.interrupt_eq_afterInterrupt, State.afterInterrupt, State.mmio, s.observeAcknowledge_eq]
  cases s.acknowledged with
  | false => rfl
  | true => exact s.mmio_setMmio_self s.params.kIrqHandled 0#8

/-- Settles O48: the closed form of `interrupt()`, with the event delivered and with the event dropped. -/
theorem interruptDelivery : Obligations.InterruptDelivery := by
  intro s hlegal t acked
  have ht : t = s.afterInterrupt s.delivers := State.interrupt_eq hlegal
  refine ⟨s.interrupt_coreKept, s.interrupt_uartOut, s.interrupt_pace, s.interrupt_mmio_handled, s.interrupt_memory,
    fun henable hfree => ?_, fun hdropped => ?_⟩
  · have hdelivers : s.delivers = true := by
      simpa [State.delivers, henable, acked] using hfree
    rw [ht, hdelivers]
    exact ⟨rfl, fun hirq => ⟨rfl, by simp [State.afterInterrupt, hirq], by simp [State.afterInterrupt, hirq]⟩,
      fun hirq => ⟨rfl, by simp [State.afterInterrupt, hirq], by simp [State.afterInterrupt, hirq]⟩⟩
  · have hdelivers : s.delivers = false := by
      simpa [State.delivers, acked, imp_iff_not_or] using hdropped
    rw [ht, hdelivers]
    exact ⟨rfl, rfl, rfl, rfl⟩

/-! ## The events (R405, R431 to R433) -/

/-- The offsets of the bytes that events write before they call `interrupt()`. -/
def eventOffsets (p : Params) : List Nat := [p.kKbdIn, p.kUartRx, p.kIrqVec]

theorem eventOffsets_subset (p : Params) : eventOffsets p ⊆ p.offsets := by
  simp [eventOffsets, Params.offsets]

/-- `interrupt()` reads none of these bytes. -/
theorem not_mem_eventOffsets {p : Params} (h : p.legal = true) :
    p.kIrqEn ∉ eventOffsets p ∧ p.kIrqHandled ∉ eventOffsets p := by
  have hne := Params.offsets_nodup h
  simp only [Params.offsets, List.nodup_cons, List.mem_cons, not_or] at hne
  grind [eventOffsets]

/-- An event writes bytes that `interrupt()` does not read, the cause code among them, and then calls it. -/
theorem State.event_form {a : HostAction} {s t : State} (h : s.event a = some t) :
    ∃ w ks, t = w.interrupt ∧ s.WritesMmio w ks ∧ ks ⊆ eventOffsets s.params
      ∧ a.cause s.params = some (w.mmio s.params.kIrqVec)
      ∧ a.touches s.params = some ((ks ++ [s.params.kIrqHandled]).map s.mmioAddress) := by
  cases a with
  | keypress b =>
    obtain rfl : s.notifyKeypress b = t := Option.some.inj h
    exact ⟨_, _, rfl, (s.setMmio_writesMmio _ _).trans (State.setMmio_writesMmio _ _ _), by simp [eventOffsets],
      congrArg some (State.mmio_setMmio_self _ _ _).symm, rfl⟩
  | uartKeypress b =>
    obtain rfl : s.notifyUartKeypress b = t := Option.some.inj h
    exact ⟨_, _, rfl, (s.setMmio_writesMmio _ _).trans (State.setMmio_writesMmio _ _ _), by simp [eventOffsets],
      congrArg some (State.mmio_setMmio_self _ _ _).symm, rfl⟩
  | timerEvent =>
    obtain rfl : s.notifyTimer = t := Option.some.inj h
    exact ⟨_, _, rfl, s.setMmio_writesMmio _ _, by simp [eventOffsets],
      congrArg some (State.mmio_setMmio_self _ _ _).symm, rfl⟩
  | timerTick | uartDrain | clock | start | stop | reset | loadProgram => cases h

theorem hostAction_of_event {a : HostAction} {s t : State} (h : s.event a = some t) : hostAction a s = .next t := by
  cases a with
  | keypress | uartKeypress | timerEvent => exact congrArg Host.Outcome.next (Option.some.inj h)
  | timerTick | uartDrain | clock | start | stop | reset | loadProgram => cases h

theorem State.WritesMmio.interrupt_coreKept {s w : State} {ks : List Nat} (h : s.WritesMmio w ks) :
    CoreKept s w.interrupt := by
  have hw := w.interrupt_coreKept
  rw [h.rest] at hw ⊢
  exact { hw with }

theorem State.WritesMmio.interrupt_memory {s w : State} {ks : List Nat} (h : s.WritesMmio w ks) :
    MemoryKeptBut s w.interrupt ((ks ++ [s.params.kIrqHandled]).map s.mmioAddress) := by
  have hhandled := w.interrupt_memory
  rw [State.mmioAddress, h.params] at hhandled
  rw [List.map_append]
  exact h.memory.trans hhandled

/-- No event touches more than the controller's flags and the bytes listed for it (R437). -/
theorem event_frame {a : HostAction} {s t : State} (h : s.event a = some t) :
    CoreKept s t ∧ t.pace = s.pace ∧ t.uartOut = s.uartOut
      ∧ ∀ addresses, a.touches s.params = some addresses → MemoryKeptBut s t addresses := by
  obtain ⟨w, ks, rfl, hw, -, -, htouches⟩ := State.event_form h
  refine ⟨hw.interrupt_coreKept, ?_, ?_, fun addresses ha => ?_⟩
  · rw [w.interrupt_pace, hw.rest]
  · rw [w.interrupt_uartOut, hw.rest]
  · obtain rfl := Option.some.inj (htouches.symm.trans ha)
    exact hw.interrupt_memory

section

variable {s : State} (hlegal : s.params.legal = true)
include hlegal

/-- `interrupt()` writes no byte but IRQ_HANDLED. -/
theorem State.interrupt_mmio_ne {k : Nat} (hk : k ∈ s.params.offsets) (hne : k ≠ s.params.kIrqHandled) :
    s.interrupt.mmio k = s.mmio k :=
  s.interrupt_memory.mmio_eq (ks := [s.params.kIrqHandled]) s.interrupt_coreKept.params hlegal
    (by simp [Params.offsets]) hk (by simpa using hne)

/-- `interrupt()` does the same after an event's bytes have been written as before. -/
theorem State.WritesMmio.irqKept_interrupt {w : State} {ks : List Nat} (h : s.WritesMmio w ks)
    (hks : ks ⊆ eventOffsets s.params) :
    IrqKept s.interrupt w.interrupt
      ∧ w.interrupt.mmio s.params.kIrqHandled = s.interrupt.mmio s.params.kIrqHandled := by
  obtain ⟨henable, hhandled⟩ := not_mem_eventOffsets hlegal
  have hread : ∀ k ∈ s.params.offsets, k ∉ eventOffsets s.params → w.mmio k = s.mmio k := fun k hk hne =>
    h.memory.mmio_eq h.params hlegal (List.Subset.trans hks (eventOffsets_subset _)) hk fun hmem => hne (hks hmem)
  have hen := hread _ (by simp [Params.offsets]) henable
  have hha := hread _ (by simp [Params.offsets]) hhandled
  have hack : w.acknowledged = s.acknowledged := by rw [State.acknowledged, h.params, hha]; rfl
  have hflag : w.blockIrq = s.blockIrq := by rw [h.rest]
  have hdelivers : w.delivers = s.delivers := by rw [State.delivers, h.params, hen, hha, hflag]; rfl
  constructor
  · rw [State.interrupt_eq hlegal, State.interrupt_eq (h.params ▸ hlegal), State.afterInterrupt, State.afterInterrupt,
      hack, hdelivers, h.rest]
    exact ⟨rfl, rfl, rfl, rfl⟩
  · rw [← h.params, w.interrupt_mmio_handled, h.params, s.interrupt_mmio_handled, hack, hha]

/-- An event leaves its cause, and does to the controller what `interrupt()` does. -/
theorem event_spec {a : HostAction} {t : State} (h : s.event a = some t) :
    some (t.mmio s.params.kIrqVec) = a.cause s.params
      ∧ t.mmio s.params.kIrqHandled = s.interrupt.mmio s.params.kIrqHandled ∧ IrqKept s.interrupt t := by
  obtain ⟨w, ks, rfl, hw, hks, hcause, -⟩ := State.event_form h
  obtain ⟨hirq, hhandled⟩ := hw.irqKept_interrupt hlegal hks
  refine ⟨?_, hhandled, hirq⟩
  rw [hcause, ← hw.params, State.interrupt_mmio_ne (hw.params ▸ hlegal) (by simp [Params.offsets]) ?_]
  exact fun he => (not_mem_eventOffsets (hw.params ▸ hlegal)).2 (he ▸ by simp [eventOffsets])

/-- All that an event does. -/
theorem hostAction_event_spec {a : HostAction} {t : State} {cause : Byte} {addresses : List Nat}
    (h : s.event a = some t) (hcause : a.cause s.params = some cause) (htouches : a.touches s.params = some addresses) :
    hostAction a s = .next t ∧ t.mmio s.params.kIrqVec = cause
      ∧ t.mmio s.params.kIrqHandled = s.interrupt.mmio s.params.kIrqHandled ∧ MemoryKeptBut s t addresses
      ∧ IrqKept s.interrupt t ∧ CoreKept s t ∧ t.pace = s.pace ∧ t.uartOut = s.uartOut := by
  obtain ⟨hcore, hpace, huart, hmem⟩ := event_frame h
  obtain ⟨hvec, hhandled, hirq⟩ := event_spec hlegal h
  exact ⟨hostAction_of_event h, Option.some.inj (hvec.trans hcause), hhandled, hmem _ htouches, hirq, hcore, hpace,
    huart⟩

/-- A data byte is still there after the cause and `interrupt()`. -/
theorem mmio_dataByte_of_event {k : Nat} (hk : k = s.params.kKbdIn ∨ k = s.params.kUartRx) (b c : Byte) :
    ((s.setMmio k b).setMmio s.params.kIrqVec c).interrupt.mmio k = b := by
  have hmem : k ∈ s.params.offsets := by rcases hk with rfl | rfl <;> simp [Params.offsets]
  have hevent : k ∈ eventOffsets s.params := by rcases hk with rfl | rfl <;> simp [eventOffsets]
  have hhandled : k ≠ s.params.kIrqHandled := fun he => (not_mem_eventOffsets hlegal).2 (he ▸ hevent)
  have hvec : k ≠ s.params.kIrqVec := by
    have hne := Params.offsets_nodup hlegal
    simp only [Params.offsets, List.nodup_cons, List.mem_cons, not_or] at hne
    rcases hk with rfl | rfl <;> simp [hne]
  have hcause := ((s.setMmio k b).setMmio_writesMmio s.params.kIrqVec c).memory
  rw [State.interrupt_mmio_ne (s := (s.setMmio k b).setMmio s.params.kIrqVec c) hlegal hmem hhandled,
    hcause.mmio_eq rfl hlegal (by simp [Params.offsets]) hmem (by simpa using hvec), State.mmio_setMmio_self]

end

/-- Settles O49: the three events are writes of bytes that `interrupt()` does not read, and then `interrupt()`. -/
theorem eventsWriteTheirBytes : Obligations.EventsWriteTheirBytes := by
  intro s b hlegal
  obtain ⟨hkey, hkeypress⟩ := hostAction_event_spec hlegal (a := .keypress b) rfl rfl rfl
  obtain ⟨huart, huartKeypress⟩ := hostAction_event_spec hlegal (a := .uartKeypress b) rfl rfl rfl
  exact ⟨⟨_, hkey, mmio_dataByte_of_event hlegal (.inl rfl) _ _, hkeypress⟩,
    ⟨_, huart, mmio_dataByte_of_event hlegal (.inr rfl) _ _, huartKeypress⟩,
    _, hostAction_event_spec hlegal (a := .timerEvent) rfl rfl rfl⟩

/-! ## Two events at one boundary (R411, R425) -/

theorem State.interrupt_acknowledged (s : State) : s.interrupt.acknowledged = false := by
  rw [State.acknowledged, s.interrupt_coreKept.params, s.interrupt_mmio_handled]
  cases h : s.acknowledged with
  | false => exact h
  | true => rfl

theorem State.delivers_eq (s : State) :
    s.delivers = (decide (s.mmio s.params.kIrqEn ≠ 0#8) && (!s.blockIrq || s.acknowledged)) := rfl

/-- Delivered, the interrupt is in flight and not acknowledged; dropped, it finds the same reason again. -/
theorem State.interrupt_delivers {s : State} (hlegal : s.params.legal = true) : s.interrupt.delivers = false := by
  have hflag : s.interrupt.blockIrq = (s.delivers || (s.blockIrq && !s.acknowledged)) := by
    rw [State.interrupt_eq hlegal]
    rfl
  have henable : s.interrupt.mmio s.params.kIrqEn = s.mmio s.params.kIrqEn :=
    State.interrupt_mmio_ne hlegal (by simp [Params.offsets]) (Params.kIrqEn_ne_kIrqHandled hlegal)
  have htable : ∀ enable flag ack : Bool,
      (enable && (!((enable && (!flag || ack)) || (flag && !ack)) || false)) = false := by decide
  rw [State.delivers_eq, s.interrupt_coreKept.params, henable, hflag, s.interrupt_acknowledged, s.delivers_eq]
  exact htable _ _ _

/-- A second call of `interrupt()` changes nothing. -/
theorem State.irqKept_interrupt_interrupt {s : State} (hlegal : s.params.legal = true) :
    IrqKept s.interrupt s.interrupt.interrupt := by
  rw [State.interrupt_eq (s := s.interrupt) (s.interrupt_coreKept.params ▸ hlegal), State.interrupt_delivers hlegal]
  refine ⟨?_, rfl, rfl, rfl⟩
  rw [State.afterInterrupt, State.interrupt_acknowledged, Bool.not_false, Bool.and_true, Bool.false_or]

theorem IrqKept.trans {s t u : State} (h : IrqKept s t) (h' : IrqKept t u) : IrqKept s u := by
  obtain ⟨hblock, hcnt, hactive, hret⟩ := h
  obtain ⟨hblock', hcnt', hactive', hret'⟩ := h'
  exact ⟨hblock'.trans hblock, hcnt'.trans hcnt, hactive'.trans hactive, hret'.trans hret⟩

/-- Settles O50: the second event does what a second `interrupt()` does. -/
theorem atMostOneEventDelivered : Obligations.AtMostOneEventDelivered := by
  intro s s1 s2 a b hlegal h1 h2
  obtain ⟨w, ks, rfl, hw, -, -, -⟩ := State.event_form h1
  have hparams : w.interrupt.params = s.params := w.interrupt_coreKept.params.trans hw.params
  obtain ⟨hcause, -, hirq⟩ := event_spec (hparams ▸ hlegal) h2
  rw [hparams] at hcause
  exact ⟨(State.irqKept_interrupt_interrupt (hw.params ▸ hlegal)).trans hirq, hcause⟩

/-! ## The timer and the UART (R434, R435) -/

theorem State.drainUart_of_ready {s : State} (h : s.mmio s.params.kDataReady ≠ 0#8) :
    s.drainUart = { s.setMmio s.params.kDataReady 0#8 with uartOut := s.uartOut ++ [s.mmio s.params.kUartTx] } :=
  if_pos h

theorem State.drainUart_of_not_ready {s : State} (h : s.mmio s.params.kDataReady = 0#8) : s.drainUart = s :=
  if_neg (not_not.2 h)

/-- Settles O55: each writes at most one byte, and a drain step the host's buffer. -/
theorem timerTickAndUartDrain : Obligations.TimerTickAndUartDrain := by
  intro s _
  refine ⟨⟨s.tickTimer, rfl, ?_, (s.setMmio_writesMmio _ _).memory, rfl⟩,
    fun hempty => congrArg Host.Outcome.next (State.drainUart_of_not_ready hempty), fun hready => ?_⟩
  · rw [State.tickTimer, State.mmio_setMmio_self, BitVec.toNat_add]
    rfl
  · exact ⟨_, congrArg Host.Outcome.next (State.drainUart_of_ready hready),
      s.mmio_setMmio_self s.params.kDataReady 0#8, rfl, (s.setMmio_writesMmio s.params.kDataReady 0#8).memory, rfl⟩

/-! ## What no action changes (R437; 70_reset_and_hazards.md R505) -/

theorem event_of_hostAction {a : HostAction} {s t : State} (hevent : (s.event a).isSome = true)
    (h : hostAction a s = .next t) : s.event a = some t := by
  obtain ⟨u, hu⟩ := Option.isSome_iff_exists.1 hevent
  rw [hu, Host.Outcome.next.inj ((hostAction_of_event hu).symm.trans h)]

/-- A drain step touches memory and the host's buffer. -/
theorem State.drainUart_frame (s : State) :
    CoreKept s s.drainUart ∧ MemoryKeptBut s s.drainUart [s.mmioAddress s.params.kDataReady]
      ∧ IrqKept s s.drainUart ∧ s.drainUart.pace = s.pace := by
  by_cases h : s.mmio s.params.kDataReady = 0#8
  · rw [State.drainUart_of_not_ready h]
    exact ⟨by constructor <;> rfl, fun _ _ => rfl, ⟨rfl, rfl, rfl, rfl⟩, rfl⟩
  · rw [State.drainUart_of_ready h]
    exact ⟨by constructor <;> rfl, (s.setMmio_writesMmio s.params.kDataReady 0#8).memory, ⟨rfl, rfl, rfl, rfl⟩, rfl⟩

/-- A load that goes on ends in a reset, and that keeps the clock. -/
theorem State.pace_of_load {s t : State} {k : Nat} {image : List Byte} (h : s.load k image = .next t) :
    t.pace = s.pace := by
  unfold State.load at h
  dsimp only at h
  split_ifs at h
  obtain rfl := Host.Outcome.next.inj h
  rfl

/-- Nothing but the clock controls changes the host's clock. -/
theorem pace_of_hostAction {a : HostAction} {s t : State} (h : hostAction a s = .next t) :
    t.pace = if a = .start then .cycle else if a = .stop then .halted else s.pace := by
  cases a with
  | keypress | uartKeypress | timerEvent => exact (event_frame (event_of_hostAction rfl h)).2.1
  | uartDrain =>
    obtain rfl := Host.Outcome.next.inj h
    exact s.drainUart_frame.2.2.2
  | timerTick | start | stop | reset =>
    obtain rfl := Host.Outcome.next.inj h
    rfl
  | clock =>
    obtain ⟨-, rfl⟩ := (cycle_next_iff s t).1 h
    exact commit_pace s _
  | loadProgram => exact State.pace_of_load h

/-- Settles O56: the events by what `interrupt()` leaves alone, the other agents by what they write. -/
theorem hostActionFrame : Obligations.HostActionFrame := by
  intro a s t h
  refine ⟨pace_of_hostAction h, fun addresses htouches => ?_⟩
  cases a with
  | keypress | uartKeypress | timerEvent =>
    obtain ⟨hcore, -, huart, hmem⟩ := event_frame (event_of_hostAction rfl h)
    exact ⟨hcore, hmem _ htouches, by simp, fun _ => huart⟩
  | uartDrain =>
    obtain rfl := Host.Outcome.next.inj h
    obtain rfl := Option.some.inj htouches
    obtain ⟨hcore, hmem, hirq, -⟩ := s.drainUart_frame
    exact ⟨hcore, hmem, fun _ => hirq, fun hne => absurd rfl hne⟩
  | timerTick =>
    obtain rfl := Host.Outcome.next.inj h
    obtain rfl := Option.some.inj htouches
    exact ⟨by constructor <;> rfl, (s.setMmio_writesMmio _ _).memory, fun _ => ⟨rfl, rfl, rfl, rfl⟩, fun _ => rfl⟩
  | start | stop =>
    obtain rfl := Host.Outcome.next.inj h
    exact ⟨by constructor <;> rfl, fun _ _ => rfl, fun _ => ⟨rfl, rfl, rfl, rfl⟩, fun _ => rfl⟩
  | clock | reset | loadProgram => cases htouches

/-! ## No fault (R400) -/

theorem hostAction_ne_fault (a : HostAction) (s : State) (f : Fault) : hostAction a s ≠ .fault f := by
  cases a with
  | clock => exact cycle_ne_fault s f
  | loadProgram k image =>
    show s.load k image ≠ .fault f
    unfold State.load
    dsimp only
    split_ifs <;> exact nofun
  | keypress | uartKeypress | timerEvent | timerTick | uartDrain | start | stop | reset => exact nofun

theorem runInstruction_ne_fault (s : State) (f : Fault) : runInstruction s ≠ .fault f := by
  unfold runInstruction
  dsimp only
  split
  · exact nofun
  · split
    · next i _ =>
      obtain ⟨t, ht, -⟩ := exec_form i s.flush
      rw [ht]
      exact nofun
    · exact nofun

theorem step_ne_fault {s : State} (hlegal : s.params.legal = true) (f : Fault) : step s ≠ .fault f := by
  cases hinbox : s.inbox with
  | cons a rest =>
    rw [step_action hlegal hinbox]
    exact hostAction_ne_fault a _ f
  | nil =>
    cases hpace : s.pace with
    | instruction =>
      rw [step_instruction hlegal hinbox hpace]
      exact runInstruction_ne_fault s f
    | cycle =>
      rw [step_cycle hlegal hinbox hpace]
      exact cycle_ne_fault s f
    | halted =>
      rw [step_halted hlegal hinbox hpace]
      exact nofun

/-- Settles O29: with legal parameters no action, instruction or cycle faults. -/
theorem stepFaultsOnIllegalParametersOnly : Obligations.StepFaultsOnIllegalParametersOnly := by
  refine ⟨fun s f => ?_, fun i s => (exec_form i s).imp fun _ h => h.1, cycle_ne_fault⟩
  cases hlegal : s.params.legal with
  | false => simp [step_illegal hlegal]
  | true => simp [step_ne_fault hlegal]

end Sys2Proof.Machine

/-! SUPPORT. The invariant every step keeps (10_state.md sections 1 to 7): what performing an instruction, a commit, the
interrupt entry, a reset and each of the host's writes keep of it. -/

namespace Sys2Proof.Machine

/-! ## Registers and stores (10_state.md R35, R47, R49) -/

/-- The part of the invariant that instructions, and not stages, can break: the stores' canonical form and the unwritten
registers' reset value. -/
structure State.DataOk (s : State) : Prop where
  stores : s.StoresOk
  regs   : s.UnwrittenZero

section

variable {s t : State}

/-- Unwritten registers stay at their reset value where every register either is marked or reads as before. -/
theorem State.UnwrittenZero.of_kept (hs : s.UnwrittenZero)
    (h : ∀ r, t.unwritten r = true → s.unwritten r = true ∧ t.readReg r = s.readReg r) : t.UnwrittenZero := by
  intro r hr
  obtain ⟨hunwritten, hread⟩ := h r hr
  exact hread.trans (hs r hunwritten)

theorem State.UnwrittenZero.writeBack (hs : s.UnwrittenZero) (i : Inst) (v : Word) :
    (s.writeBack i v).UnwrittenZero := by
  refine hs.of_kept fun r hr => ?_
  rw [State.unwritten_writeBack, Bool.and_eq_true, Bool.not_eq_true'] at hr
  obtain ⟨hunwritten, hwrites⟩ := hr
  have hne : r ≠ 0#5 := by
    rintro rfl
    simp at hunwritten
  refine ⟨hunwritten, ?_⟩
  rw [State.readReg_writeBack hne, hwrites]
  rfl

theorem State.UnwrittenZero.writesReg (hs : s.UnwrittenZero) {rd : Reg} {v : Word} (h : WritesReg s t rd v) :
    t.UnwrittenZero := by
  refine hs.of_kept fun r hr => ?_
  rw [h.2, Bool.and_eq_true, decide_eq_true_iff] at hr
  exact ⟨hr.1, (h.kept_of_ne hr.2).1⟩

/-- A store and an update of the predictor, where they take place, keep the canonical form (R311, R318). -/
theorem State.StoresOk.of_writes (hs : s.StoresOk) {store branch taken : Bool} {f3 : BitVec 3} {a v pc : Word}
    (hparams : t.params = s.params) (hmem : t.mem = if store then storeValue s.params s.mem f3 a v else s.mem)
    (hctr : t.ctr = if branch then updateCtr s.params s.ctr s.hist pc taken else s.ctr)
    (hhist : t.hist = if branch then updateHist s.params s.hist pc taken else s.hist) : t.StoresOk := by
  refine ⟨?_, ?_, ?_⟩
  · rw [hparams, hmem]
    cases store with
    | true => exact storeValue_wf _ _ _ _ _ hs.mem
    | false => exact hs.mem
  · rw [hparams, hctr]
    cases branch with
    | true => exact updateCtr_wf _ _ _ _ _ hs.ctr
    | false => exact hs.ctr
  · rw [hparams, hhist]
    cases branch with
    | true => exact updateHist_wf _ _ _ _ hs.hist
    | false => exact hs.hist

theorem State.DataOk.perform (hs : s.DataOk) (d : IdEx) : (s.perform d).DataOk :=
  ⟨hs.stores.of_writes rfl rfl rfl rfl, hs.regs.writeBack d.inst _⟩

theorem State.DataOk.performInst (hs : s.DataOk) (i : Inst) (pred : Word) : (s.performInst i pred).DataOk := by
  have hnoted : (s.noteReads i).DataOk := by
    rw [State.noteReads_eq]
    exact ⟨{ hs.stores with }, hs.regs⟩
  obtain ⟨hstores, hregs⟩ := hnoted.perform (s.issueOf i pred)
  exact ⟨{ hstores with }, hregs⟩

/-- A commit performs the store in Memory, the branch in Execute and the write in WriteBack. -/
theorem State.DataOk.commit (hs : s.DataOk) (d : DecodeOut) : (commit s d).DataOk := by
  refine ⟨hs.stores.of_writes (commit_params s d) rfl rfl rfl, ?_⟩
  rw [commit_eq_writeBack]
  exact hs.regs.writeBack _ _

theorem State.DataOk.flush (hs : s.DataOk) : s.flush.DataOk := by
  obtain ⟨hstores, hregs⟩ : (drainCycle (drainCycle (drainCycle s))).DataOk := ((hs.commit _).commit _).commit _
  exact ⟨{ hstores with }, hregs⟩

theorem State.DataOk.takeInterrupt (hs : s.DataOk) : s.takeInterrupt.DataOk := by
  obtain ⟨hmem, hctr, hhist⟩ := hs.stores
  exact ⟨⟨by simpa using hmem, by simpa using hctr, by simpa using hhist⟩,
    hs.regs.writesReg s.takeInterrupt_spec.1⟩

/-- One instruction, or one interrupt entry. -/
theorem State.DataOk.runInstruction (hs : s.DataOk) (h : runInstruction s = .next t) : t.DataOk := by
  obtain ⟨-, rfl⟩ | ⟨hirq, i, hi, hexec⟩ := (runInstruction_next_iff s t).1 h
  · exact hs.flush.takeInterrupt
  · obtain rfl := Host.Outcome.next.inj ((exec_eq_performInst hirq hi 0#32).symm.trans hexec)
    exact hs.flush.performInst _ _

/-! ## The pipeline (10_state.md R36, R48) -/

/-- With nothing in flight and no countdown, nothing has to hang together. -/
theorem pipeOk_of_quiet (hquiet : s.quiet = true) (hirq : s.irqActive = false) (hcnt : s.irqCnt = 0) : s.PipeOk := by
  obtain ⟨hnpc, hifid, hidex, -, -⟩ := s.quiet_iff.1 hquiet
  constructor <;> simp [hnpc, hifid, hidex, hirq, hcnt, IfId.restart, IdEx.empty]

/-- An instruction starts no countdown, and an entry ends the one that runs. -/
theorem countdown_of_runInstruction (hp : s.PipeOk) (h : runInstruction s = .next t) :
    t.irqActive = false ∧ t.irqCnt = 0 := by
  obtain ⟨-, rfl⟩ | ⟨hirq, i, -, hexec⟩ := (runInstruction_next_iff s t).1 h
  · exact ⟨s.flush.takeInterrupt_irqActive, s.flush.takeInterrupt_irqCnt⟩
  · have hkept := (execForm_of_exec hexec).controlKept
    rw [s.flush_irqActive] at hirq
    exact ⟨by rw [hkept.irqActive, s.flush_irqActive, hirq],
      by rw [hkept.irqCnt, s.flush_irqCnt, hp.countIdle hirq]⟩

theorem pipeOk_of_runInstruction (hp : s.PipeOk) (h : runInstruction s = .next t) : t.PipeOk := by
  obtain ⟨hirq, hcnt⟩ := countdown_of_runInstruction hp h
  exact pipeOk_of_quiet (instructionLevelStaysQuiet s t h) hirq hcnt

theorem params_of_runInstruction (h : runInstruction s = .next t) : t.params = s.params := by
  obtain ⟨-, rfl⟩ | ⟨-, i, -, hexec⟩ := (runInstruction_next_iff s t).1 h
  · rw [State.takeInterrupt_params, State.flush_params]
  · exact (execForm_of_exec hexec).controlKept.params.trans s.flush_params

/-! ## Steps of the core -/

theorem State.Inv.dataOk (h : s.Inv) : s.DataOk := ⟨h.stores, h.regs⟩

theorem State.Inv.runInstruction (hs : s.Inv) (h : runInstruction s = .next t) : t.Inv := by
  obtain ⟨hstores, hregs⟩ := hs.dataOk.runInstruction h
  exact ⟨params_of_runInstruction h ▸ hs.legal, hstores, hregs, pipeOk_of_runInstruction hs.pipe h⟩

theorem State.Inv.cycle (hs : s.Inv) (h : cycle s = .next t) : t.Inv := by
  have hdata : t.DataOk := by
    obtain ⟨-, rfl⟩ := (cycle_next_iff s t).1 h
    exact hs.dataOk.commit _
  exact ⟨params_of_cycle h ▸ hs.legal, hdata.stores, hdata.regs, pipeOk_of_cycle hs.pipe h⟩

end

/-! ## Reset and load (70_reset_and_hazards.md R501 to R503) -/

@[simp] theorem State.initial_readReg (p : Params) (r : Reg) : (State.initial p).readReg r = 0#32 := by
  simp [State.readReg, State.initial]

@[simp] theorem State.initial_unwritten (p : Params) (r : Reg) : (State.initial p).unwritten r = decide (r ≠ 0#5) := by
  simp [State.unwritten, State.initial]

theorem State.initial_quiet (p : Params) : (State.initial p).quiet = true :=
  (State.initial p).quiet_iff.2 ⟨rfl, rfl, rfl, rfl, rfl⟩

theorem State.initial_inv {p : Params} (h : p.legal = true) : (State.initial p).Inv where
  legal  := h
  stores := ⟨sparseWf_nil _ _, sparseWf_nil _ _, sparseWf_nil _ _⟩
  regs   := fun r _ => State.initial_readReg p r
  pipe   := pipeOk_of_quiet (State.initial_quiet p) rfl rfl

/-- A reset keeps a memory in canonical form, and is the initial state in all else. -/
theorem State.coreReset_inv {s : State} (hlegal : s.params.legal = true)
    (hmem : Memory.wf s.params.memSize s.mem = true) : s.coreReset.Inv := by
  obtain ⟨-, ⟨-, hctr, hhist⟩, hregs, hpipe⟩ := State.initial_inv hlegal
  exact ⟨hlegal, ⟨hmem, hctr, hhist⟩, hregs, { hpipe with }⟩

/-- Settles O31: every register of the initial state reads 0, its stores are empty and nothing is in flight. -/
theorem resetMeetsInvariant : Obligations.ResetMeetsInvariant :=
  ⟨fun p hp => ⟨State.initial_inv hp, State.initial_quiet p⟩, State.initial_inv (p := Params.vectors) (by decide)⟩

/-- Settles O59: a reset is the initial state but for memory and what is the host's. -/
theorem resetState : Obligations.ResetState := fun s =>
  ⟨s.coreReset, rfl, rfl, State.initial_unwritten s.params, rfl, rfl, rfl, rfl, rfl, rfl, rfl, fun _ => rfl,
    fun _ => rfl, rfl, rfl, rfl, rfl, rfl⟩

/-- A load that goes on found legal parameters and an image that fits. -/
theorem State.load_next_iff (s t : State) (k : Nat) (image : List Byte) :
    s.load k image = .next t ↔
      ({ s.params with memLog := k } : Params).legal = true ∧ image.length ≤ 2 ^ k
        ∧ t = ({ s with params := { s.params with memLog := k }, mem := imageCells 0 image } : State).coreReset := by
  have hsize : ({ s.params with memLog := k } : Params).memSize = 2 ^ k := rfl
  unfold State.load
  dsimp only
  rw [hsize]
  split_ifs with hlegal hlong
  · simp [hlegal]
  · simp [Nat.not_le.2 hlong]
  · simp [Bool.not_eq_false _ ▸ hlegal, Nat.not_lt.1 hlong, eq_comm (a := t)]

theorem State.load_inv {s t : State} {k : Nat} {image : List Byte} (h : s.load k image = .next t) : t.Inv := by
  obtain ⟨hlegal, hfits, rfl⟩ := (s.load_next_iff t k image).1 h
  exact State.coreReset_inv hlegal (imageCells_wf _ 0 image (by rw [Nat.zero_add]; exact hfits))

/-! ## The host's actions (60_exceptions.md R410 to R437) -/

theorem Params.one_le_offset {p : Params} (h : p.legal = true) {k : Nat} (hk : k ∈ p.offsets) : 1 ≤ k := by
  simp only [Params.legal, Bool.and_eq_true, decide_eq_true_eq, List.all_eq_true] at h
  exact (h.1.2 k hk).1

theorem Params.one_le_irqDrain {p : Params} (h : p.legal = true) : 1 ≤ p.irqDrain := by
  simp only [Params.legal, Bool.and_eq_true, decide_eq_true_eq] at h
  tauto

section

variable {s : State} (hs : s.Inv)
include hs

theorem State.Inv.setMmio {k : Nat} (hk : k ∈ s.params.offsets) (v : Byte) : (s.setMmio k v).Inv := by
  obtain ⟨hlegal, ⟨hmem, hctr, hhist⟩, hregs, hpipe⟩ := hs
  have hle := Params.offset_le_memSize hlegal hk
  exact ⟨hlegal, ⟨setMmio_wf s k v (Params.one_le_offset hlegal hk) hle hmem, hctr, hhist⟩, hregs, { hpipe with }⟩

/-- What belongs to the host, and whether an interrupt is in flight, is outside the invariant. -/
theorem State.Inv.withHost (blockIrq : Bool) (uartOut : List Byte) (inbox : List HostAction) (pace : Pace) :
    ({ s with blockIrq := blockIrq, uartOut := uartOut, inbox := inbox, pace := pace } : State).Inv :=
  ⟨hs.legal, { hs.stores with }, hs.regs, { hs.pipe with }⟩

theorem State.Inv.observeAcknowledge : s.observeAcknowledge.Inv := by
  unfold State.observeAcknowledge
  split
  · exact (hs.setMmio (by simp [Params.offsets]) 0#8).withHost false _ _ _
  · exact hs

/-- `irq()` starts a countdown of at least one cycle, with the PC as its return address (R412). -/
theorem State.Inv.irq : s.irq.Inv := by
  cases hirq : s.irqActive with
  | true =>
    rw [State.irq, if_pos hirq]
    exact hs
  | false =>
    rw [State.irq, if_neg (by simp [hirq])]
    exact ⟨hs.legal, { hs.stores with }, hs.regs,
      { hs.pipe with
        returnPc := fun _ => rfl
        countRunning := fun _ => Params.one_le_irqDrain hs.legal
        countIdle := nofun
        countBound := le_refl _ }⟩

theorem State.Inv.interrupt : s.interrupt.Inv := by
  have hack := hs.observeAcknowledge
  cases haccepts : s.observeAcknowledge.accepts with
  | true =>
    rw [State.interrupt_of_accepts haccepts]
    exact (hack.withHost true _ _ _).irq
  | false =>
    rw [State.interrupt_of_not_accepts haccepts]
    exact hack

theorem State.Inv.drainUart : s.drainUart.Inv := by
  by_cases hready : s.mmio s.params.kDataReady = 0#8
  · rw [State.drainUart_of_not_ready hready]
    exact hs
  · rw [State.drainUart_of_ready hready]
    exact (hs.setMmio (by simp [Params.offsets]) 0#8).withHost _ _ _ _

/-- Every action of the host is made of writes to memory-mapped bytes, `interrupt()`, a cycle, a reset or a load. -/
theorem State.Inv.hostAction {a : HostAction} {t : State} (h : hostAction a s = .next t) : t.Inv := by
  cases a with
  | keypress b | uartKeypress b =>
    obtain rfl := Host.Outcome.next.inj h
    exact ((hs.setMmio (by simp [Params.offsets]) b).setMmio (by simp [Params.offsets]) _).interrupt
  | timerEvent =>
    obtain rfl := Host.Outcome.next.inj h
    exact (hs.setMmio (by simp [Params.offsets]) _).interrupt
  | timerTick =>
    obtain rfl := Host.Outcome.next.inj h
    exact hs.setMmio (by simp [Params.offsets]) _
  | uartDrain =>
    obtain rfl := Host.Outcome.next.inj h
    exact hs.drainUart
  | clock => exact hs.cycle h
  | start | stop =>
    obtain rfl := Host.Outcome.next.inj h
    exact hs.withHost _ _ _ _
  | reset =>
    obtain rfl := Host.Outcome.next.inj h
    exact State.coreReset_inv hs.legal hs.stores.mem
  | loadProgram => exact State.load_inv h

end

/-- Settles O30: a step is an action of the host, an instruction, a cycle or nothing, and each keeps the invariant. -/
theorem stepKeepsInvariant : Obligations.StepKeepsInvariant := by
  intro s t hs h
  cases hinbox : s.inbox with
  | cons a rest =>
    rw [step_action hs.legal hinbox] at h
    exact (hs.withHost _ _ rest _).hostAction h
  | nil =>
    cases hpace : s.pace with
    | instruction => exact hs.runInstruction ((step_instruction hs.legal hinbox hpace).symm.trans h)
    | cycle => exact hs.cycle ((step_cycle hs.legal hinbox hpace).symm.trans h)
    | halted => exact Host.Outcome.next.inj ((step_halted hs.legal hinbox hpace).symm.trans h) ▸ hs

end Sys2Proof.Machine

/-! SUPPORT. Decoding and encoding are inverse to each other (30_encoding.md sections 2 to 4, 44_system_unallocated.md),
and the registers an instruction's format reads are those its report covers (10_state.md R34, R35). -/

namespace Sys2Proof.Machine

/-! ## Decoding an encoded instruction -/

/-- A well-formed instruction's word is read back as the instruction: each layout keeps the fields put into it. -/
theorem decode_encode {i : Instr} (h : i.wf = true) : decode (encode i) = .ok i := by
  cases i with
  | add | sub | sll | slt | sltu | xor | srl | sra | or | and
  | mul | mulh | mulhsu | mulhu | div | divu | rem | remu =>
    simp [encode, decode_wordR_register, decodeRegister]
  | addi | slti | sltiu | xori | ori | andi | slli => simp [encode, decode_wordI_immediate, decodeImmediate]
  | srli | srai => simpa [encode, decode_wordI_immediate, decodeImmediate, Instr.wf] using h
  | lui | auipc => simp [encode, decode]
  | jal => exact decode_wordJ (by simpa [Instr.wf] using h) _
  | jalr => exact decode_wordI_jalr ..
  | beq | bne | blt | bge | bltu | bgeu =>
    simp only [Instr.wf, Bool.not_eq_true'] at h
    simp [encode, decode_wordB_branch, decodeBranch, immBOf_wordB _ _ _ _ _ h]
  | lb | lh | lw | lbu | lhu => simp [encode, decode_wordI_load, decodeLoad]
  | sb | sh | sw => simp [encode, decode_wordS_store, decodeStore]
  | fence | fenceI => simp [encode, decode, decodeOther, decodeMiscMem]
  | csrrw | csrrs | csrrc | csrrwi | csrrsi | csrrci => simp [encode, decode, decodeOther, decodeSystem]
  | ecall | ebreak | mret | sret | wfi => rfl
  | sfenceVma => simp [encode, decode, decodeOther, decodeSystem_of_sfence]
  | lrW =>
    simp only [encode]
    rw [decode_of_nop (by rw [opcodeOf_wordR]; rfl), decodeOther_of_amo (opcodeOf_wordR ..),
      decodeAmo_of_lr (funct7Of_wordR ..) (rs2Of_wordR ..) (funct3Of_wordR ..), rdOf_wordR, rs1Of_wordR]
  | scW =>
    simp only [encode]
    rw [decode_of_nop (by rw [opcodeOf_wordR]; rfl), decodeOther_of_amo (opcodeOf_wordR ..),
      decodeAmo_of_sc (funct7Of_wordR ..) (funct3Of_wordR ..), rdOf_wordR, rs1Of_wordR, rs2Of_wordR]
  | amo =>
    simp only [Instr.wf, Bool.and_eq_true, Bool.not_eq_true'] at h
    simp [encode, decode, decodeOther, decodeAmo, h]
  | loadFp | storeFp | opFp | fmadd | fmsub | fnmsub | fnmadd | op32 | opImm32
  | custom0 | custom1 | custom2 | custom3 => simp [encode, decode, decodeOther]
  | anyOther =>
    rw [encode, decode_of_nop (formatOf_eq_nop_of_isOtherWord h), decodeOther_of_isOtherWord h]

/-- Settles O1: each layout of the encoder keeps its fields apart. -/
theorem encodeDecodeRoundTrip : Obligations.EncodeDecodeRoundTrip := fun _ => decode_encode

/-! ## A word from its fields (30_encoding.md R102, R104) -/

section

variable {w : Word} {op : BitVec 7} {f3 : BitVec 3} {f7 : BitVec 7}

theorem wordRest_of_fields (hop : opcodeOf w = op) : wordRest (restOf w) op = w := by
  subst hop
  exact (BitVec.extractLsb'_append_extractLsb'_eq_extractLsb' rfl).trans BitVec.extractLsb'_eq_self

/-- A U-type word is one of the rest and the opcode, the rest being the immediate and rd. -/
theorem wordU_of_fields (hop : opcodeOf w = op) : wordU (immUOf w) (rdOf w) op = w := by
  have hrest : immUOf w ++ rdOf w = restOf w := BitVec.extractLsb'_append_extractLsb'_eq_extractLsb' rfl
  have hword := wordRest_of_fields hop
  rwa [← hrest] at hword

/-- An I-type word is U-type with rs1 and funct3 for the low bits of the immediate. -/
theorem wordI_of_fields (h3 : funct3Of w = f3) (hop : opcodeOf w = op) :
    wordI (immIOf w) (rs1Of w) f3 (rdOf w) op = w := by
  subst h3
  have himm : immIOf w ++ rs1Of w ++ funct3Of w = immUOf w := by
    have hhigh : immIOf w ++ rs1Of w = w.extractLsb' 15 17 :=
      BitVec.extractLsb'_append_extractLsb'_eq_extractLsb' rfl
    rw [hhigh]
    exact BitVec.extractLsb'_append_extractLsb'_eq_extractLsb' rfl
  have hword := wordU_of_fields hop
  rwa [← himm] at hword

/-- An R-type word is I-type with funct7 and rs2 for the immediate. -/
theorem wordR_of_fields (h7 : funct7Of w = f7) (h3 : funct3Of w = f3) (hop : opcodeOf w = op) :
    wordR f7 (rs2Of w) (rs1Of w) f3 (rdOf w) op = w := by
  subst h7
  have himm : funct7Of w ++ rs2Of w = immIOf w := BitVec.extractLsb'_append_extractLsb'_eq_extractLsb' rfl
  have hword := wordI_of_fields h3 hop
  rwa [← himm] at hword

/-- An S-type word is R-type with the immediate's halves for funct7 and rd. -/
theorem wordS_of_fields (h3 : funct3Of w = f3) (hop : opcodeOf w = op) :
    wordS (immSOf w) (rs2Of w) (rs1Of w) f3 op = w := by
  have hhigh : (immSOf w).extractLsb' 5 7 = funct7Of w := BitVec.extractLsb'_append_eq_left
  have hlow : (immSOf w).extractLsb' 0 5 = rdOf w := BitVec.extractLsb'_append_eq_right
  rw [wordS, hhigh, hlow]
  exact wordR_of_fields rfl h3 hop

theorem wordB_of_fields (h3 : funct3Of w = f3) (hop : opcodeOf w = op) :
    wordB (immBOf w) (rs2Of w) (rs1Of w) f3 op = w := by
  subst h3 hop
  apply BitVec.eq_of_getLsbD_eq
  intro i hi
  simp only [wordB, immBOf, rs2Of, rs1Of, funct3Of, opcodeOf, BitVec.getLsbD_append, BitVec.getLsbD_extractLsb']
  grind

theorem wordJ_of_fields (hop : opcodeOf w = op) : wordJ (immJOf w) (rdOf w) op = w := by
  subst hop
  apply BitVec.eq_of_getLsbD_eq
  intro i hi
  simp only [wordJ, immJOf, rdOf, opcodeOf, BitVec.getLsbD_append, BitVec.getLsbD_extractLsb']
  grind

/-- funct7 of an AMO word is funct5 and the two ordering bits (44_system_unallocated.md R263). -/
theorem funct7Of_of_funct5 {f5 : BitVec 5} (h : (funct7Of w).extractLsb' 2 5 = f5) :
    funct7Of w = f5 ++ w.extractLsb' 25 2 := by
  subst h
  simp only [funct7Of]
  ext i hi
  simp
  grind

end

/-! ## Encoding a decoded instruction -/

/-- The instruction is well-formed and `w` is its word. -/
def IsWordOf (w : Word) (i : Instr) : Prop := i.wf = true ∧ encode i = w

section

variable {w : Word} {i : Instr}

theorem IsWordOf.ite {j : Instr} {c : Prop} [Decidable c] (hi : c → IsWordOf w i) (hj : ¬ c → IsWordOf w j) :
    IsWordOf w (if c then i else j) := by
  split
  · next h => exact hi h
  · next h => exact hj h

theorem isWordOf_of_decodeRegister (hop : opcodeOf w = 0b0110011#7) (h : decodeRegister w = .ok i) :
    IsWordOf w i := by
  by_cases hbase : funct7Of w = 0b0000000#7
  · obtain h3 | h3 | h3 | h3 | h3 | h3 | h3 | h3 := funct3_cases (funct3Of w) <;>
      simp [decodeRegister, hbase, h3] at h <;> exact h ▸ ⟨rfl, wordR_of_fields hbase h3 hop⟩
  by_cases hinv : funct7Of w = 0b0100000#7
  · by_cases h0 : funct3Of w = 0#3
    · simp [decodeRegister, hinv, h0] at h
      exact h ▸ ⟨rfl, wordR_of_fields hinv h0 hop⟩
    by_cases h5 : funct3Of w = 5#3
    · simp [decodeRegister, hinv, h5] at h
      exact h ▸ ⟨rfl, wordR_of_fields hinv h5 hop⟩
    simp [decodeRegister, hinv, h0, h5] at h
  by_cases hmul : funct7Of w = 0b0000001#7
  · obtain h3 | h3 | h3 | h3 | h3 | h3 | h3 | h3 := funct3_cases (funct3Of w) <;>
      simp [decodeRegister, hmul, h3] at h <;> exact h ▸ ⟨rfl, wordR_of_fields hmul h3 hop⟩
  simp [decodeRegister, hbase, hinv, hmul] at h

theorem decodeImmediate_isWordOf (hop : opcodeOf w = 0b0010011#7) : IsWordOf w (decodeImmediate w) := by
  obtain h | h | h | h | h | h | h | h := funct3_cases (funct3Of w)
  on_goal 6 =>
    cases hbit : (immIOf w).getLsbD 10 with
    | true =>
      simp only [decodeImmediate, h, hbit]
      exact ⟨hbit, wordI_of_fields h hop⟩
    | false =>
      have hwf : (!(immIOf w).getLsbD 10) = true := by rw [hbit]; rfl
      simp only [decodeImmediate, h, hbit]
      exact ⟨hwf, wordI_of_fields h hop⟩
  all_goals
    simp only [decodeImmediate, h]
    exact ⟨rfl, wordI_of_fields h hop⟩

theorem isWordOf_of_decodeLoad (hop : opcodeOf w = 0b0000011#7) (h : decodeLoad w = .ok i) : IsWordOf w i := by
  obtain h3 | h3 | h3 | h3 | h3 | h3 | h3 | h3 := funct3_cases (funct3Of w) <;>
    simp [decodeLoad, h3] at h <;> exact h ▸ ⟨rfl, wordI_of_fields h3 hop⟩

theorem isWordOf_of_decodeStore (hop : opcodeOf w = 0b0100011#7) (h : decodeStore w = .ok i) : IsWordOf w i := by
  obtain h3 | h3 | h3 | h3 | h3 | h3 | h3 | h3 := funct3_cases (funct3Of w) <;>
    simp [decodeStore, h3] at h <;> exact h ▸ ⟨rfl, wordS_of_fields h3 hop⟩

/-- The bit a B-type word does not hold is 0 (R108). -/
theorem not_getLsbD_zero_immBOf (w : Word) : (!(immBOf w).getLsbD 0) = true := by
  rw [immBOf, BitVec.getLsbD_append]
  rfl

/-- The bit a J-type word does not hold is 0 (R110). -/
theorem not_getLsbD_zero_immJOf (w : Word) : (!(immJOf w).getLsbD 0) = true := by
  rw [immJOf, BitVec.getLsbD_append]
  rfl

theorem isWordOf_of_decodeBranch (hop : opcodeOf w = 0b1100011#7) (h : decodeBranch w = .ok i) : IsWordOf w i := by
  obtain h3 | h3 | h3 | h3 | h3 | h3 | h3 | h3 := funct3_cases (funct3Of w) <;>
    simp [decodeBranch, h3] at h <;> exact h ▸ ⟨not_getLsbD_zero_immBOf w, wordB_of_fields h3 hop⟩

/-! ## The rows of no implemented opcode (44_system_unallocated.md) -/

theorem decodeMiscMem_isWordOf (hop : opcodeOf w = 0b0001111#7) : IsWordOf w (decodeMiscMem w) := by
  refine .ite (fun h3 => ⟨rfl, wordI_of_fields h3 hop⟩) fun h0 =>
    .ite (fun h3 => ⟨rfl, wordI_of_fields h3 hop⟩) fun h1 => ⟨(isOtherWord_iff w).2 ?_, rfl⟩
  rw [hop]
  exact ⟨by decide, fun _ => by simpa [isMiscMemRow] using ⟨h0, h1⟩, nofun⟩

theorem decodeSystem_isWordOf (hop : opcodeOf w = 0b1110011#7) : IsWordOf w (decodeSystem w) := by
  refine .ite (fun h3 => ⟨rfl, wordI_of_fields h3 hop⟩) fun h1 =>
    .ite (fun h3 => ⟨rfl, wordI_of_fields h3 hop⟩) fun h2 =>
    .ite (fun h3 => ⟨rfl, wordI_of_fields h3 hop⟩) fun h3 =>
    .ite (fun h3 => ⟨rfl, wordI_of_fields h3 hop⟩) fun h5 =>
    .ite (fun h3 => ⟨rfl, wordI_of_fields h3 hop⟩) fun h6 =>
    .ite (fun h3 => ⟨rfl, wordI_of_fields h3 hop⟩) fun h7 =>
    .ite (fun hw => ⟨rfl, hw.symm⟩) fun hecall => .ite (fun hw => ⟨rfl, hw.symm⟩) fun hebreak =>
    .ite (fun hw => ⟨rfl, hw.symm⟩) fun hmret => .ite (fun hw => ⟨rfl, hw.symm⟩) fun hsret =>
    .ite (fun hw => ⟨rfl, hw.symm⟩) fun hwfi => .ite (fun ⟨hf3, hrd, hf7⟩ => ⟨rfl, ?sfence⟩) fun hsfence =>
    ⟨(isOtherWord_iff w).2 ?other, rfl⟩
  case sfence =>
    have hword := wordR_of_fields hf7 hf3 hop
    rwa [hrd] at hword
  case other =>
    rw [hop]
    refine ⟨by decide, nofun, fun _ => ?_⟩
    simp only [isSystemRow, Bool.eq_false_iff, ne_eq, Bool.or_eq_true, Bool.and_eq_true, beq_iff_eq, not_or, and_assoc]
    exact ⟨h1, h2, h3, h5, h6, h7, hecall, hebreak, hmret, hsret, hwfi, hsfence⟩

theorem decodeAmo_isWordOf (hop : opcodeOf w = 0b0101111#7) : IsWordOf w (decodeAmo w) := by
  refine .ite (fun hlr => ⟨rfl, ?lr⟩) fun hlr => .ite (fun hsc => ⟨rfl, ?sc⟩) fun hsc =>
    ⟨by simp [Instr.wf, hlr, hsc], wordRest_of_fields hop⟩
  case lr =>
    simp only [isLrRest_restOf, Bool.and_eq_true, beq_iff_eq] at hlr
    obtain ⟨⟨h5, hrs2⟩, h3⟩ := hlr
    have hword := wordR_of_fields (funct7Of_of_funct5 h5) h3 hop
    rwa [hrs2] at hword
  case sc =>
    simp only [isScRest_restOf, Bool.and_eq_true, beq_iff_eq] at hsc
    exact wordR_of_fields (funct7Of_of_funct5 hsc.1) hsc.2 hop

theorem decodeOther_isWordOf (hnop : formatOf (opcodeOf w) = .NOP) : IsWordOf w (decodeOther w) := by
  refine .ite decodeMiscMem_isWordOf fun hmisc => .ite decodeSystem_isWordOf fun hsystem =>
    .ite decodeAmo_isWordOf fun hamo => ?_
  iterate 13 refine .ite (fun hop => ⟨rfl, wordRest_of_fields hop⟩) fun _ => ?_
  refine ⟨(isOtherWord_iff w).2 ⟨?_, fun h => absurd h hmisc, fun h => absurd h hsystem⟩, rfl⟩
  simp only [formatOf_eq_nop_iff, implementedOpcodes, List.mem_cons, List.not_mem_nil, or_false, not_or] at hnop
  simp [rowOpcodes, *]

/-- A word that is an instruction is the word of that instruction. -/
theorem isWordOf_of_decode (h : decode w = .ok i) : IsWordOf w i := by
  by_cases hop : opcodeOf w ∈ implementedOpcodes
  · simp only [implementedOpcodes, List.mem_cons, List.not_mem_nil, or_false] at hop
    obtain hop | hop | hop | hop | hop | hop | hop | hop | hop := hop <;> simp [decode, hop] at h
    · exact isWordOf_of_decodeRegister hop h
    · exact h ▸ decodeImmediate_isWordOf hop
    · exact isWordOf_of_decodeLoad hop h
    · exact h ▸ ⟨rfl, wordI_of_fields rfl hop⟩
    · exact isWordOf_of_decodeStore hop h
    · exact isWordOf_of_decodeBranch hop h
    · exact h ▸ ⟨rfl, wordU_of_fields hop⟩
    · exact h ▸ ⟨rfl, wordU_of_fields hop⟩
    · exact h ▸ ⟨not_getLsbD_zero_immJOf w, wordJ_of_fields hop⟩
  · have hnop := (formatOf_eq_nop_iff _).2 hop
    obtain rfl : decodeOther w = i := by simpa [decode_of_nop hnop] using h
    exact decodeOther_isWordOf hnop

end

/-! ## The row of an instruction (opcode_table.json) -/

/-- The word of every well-formed instruction has the fixed bits of its row. -/
theorem row_statement (i : Instr) : Laws.Row.Statement i := by
  cases i
  exacts [Laws.Row.add _ _ _, Laws.Row.sub _ _ _, Laws.Row.sll _ _ _, Laws.Row.slt _ _ _, Laws.Row.sltu _ _ _,
    Laws.Row.xor _ _ _, Laws.Row.srl _ _ _, Laws.Row.sra _ _ _, Laws.Row.or _ _ _, Laws.Row.and _ _ _,
    Laws.Row.mul _ _ _, Laws.Row.mulh _ _ _, Laws.Row.mulhsu _ _ _, Laws.Row.mulhu _ _ _, Laws.Row.div _ _ _,
    Laws.Row.divu _ _ _, Laws.Row.rem _ _ _, Laws.Row.remu _ _ _, Laws.Row.addi _ _ _, Laws.Row.slti _ _ _,
    Laws.Row.sltiu _ _ _, Laws.Row.xori _ _ _, Laws.Row.ori _ _ _, Laws.Row.andi _ _ _, Laws.Row.slli _ _ _,
    Laws.Row.srli _ _ _, Laws.Row.srai _ _ _, Laws.Row.lui _ _, Laws.Row.auipc _ _, Laws.Row.jal _ _,
    Laws.Row.jalr _ _ _ _, Laws.Row.beq _ _ _, Laws.Row.bne _ _ _, Laws.Row.blt _ _ _, Laws.Row.bge _ _ _,
    Laws.Row.bltu _ _ _, Laws.Row.bgeu _ _ _, Laws.Row.lb _ _ _, Laws.Row.lh _ _ _, Laws.Row.lw _ _ _,
    Laws.Row.lbu _ _ _, Laws.Row.lhu _ _ _, Laws.Row.sb _ _ _, Laws.Row.sh _ _ _, Laws.Row.sw _ _ _,
    Laws.Row.fence _ _ _, Laws.Row.fenceI _ _ _, Laws.Row.ecall, Laws.Row.ebreak, Laws.Row.csrrw _ _ _,
    Laws.Row.csrrs _ _ _, Laws.Row.csrrc _ _ _, Laws.Row.csrrwi _ _ _, Laws.Row.csrrsi _ _ _, Laws.Row.csrrci _ _ _,
    Laws.Row.mret, Laws.Row.sret, Laws.Row.wfi, Laws.Row.sfenceVma _ _, Laws.Row.lrW _ _ _, Laws.Row.scW _ _ _ _,
    Laws.Row.amo _, Laws.Row.loadFp _, Laws.Row.storeFp _, Laws.Row.opFp _, Laws.Row.fmadd _, Laws.Row.fmsub _,
    Laws.Row.fnmsub _, Laws.Row.fnmadd _, Laws.Row.op32 _, Laws.Row.opImm32 _, Laws.Row.custom0 _,
    Laws.Row.custom1 _, Laws.Row.custom2 _, Laws.Row.custom3 _, Laws.Row.anyOther _]

/-- Settles O2: a decoded word is the encoding of what it decodes to, and so has the fixed bits of that row. -/
theorem decodeEncodeExact : Obligations.DecodeEncodeExact := by
  intro w i h
  obtain ⟨hwf, rfl⟩ := isWordOf_of_decode h
  exact ⟨hwf, rfl, row_statement i hwf⟩

/-- Settles O6: each word is evaluated. -/
theorem writtenOutWordsDecode : Obligations.WrittenOutWordsDecode := by
  unfold Obligations.WrittenOutWordsDecode
  decide

/-! ## The registers a format reads (10_state.md R34) -/

/-- The registers a word's record reads, by its format. -/
theorem decodeRecord_reads {w : Word} {f : Fmt} (h : formatOf (opcodeOf w) = f) :
    (decodeRecord w).reads = (if hasRs1 f then [rs1Of w] else []) ++ (if hasRs2 f then [rs2Of w] else []) := by
  subst h
  simp only [Inst.reads, decodeRecord_of_format rfl rfl]
  cases hasRs1 (formatOf (opcodeOf w)) <;> cases hasRs2 (formatOf (opcodeOf w)) <;> rfl

/-- JALR notes the register it reads before it jumps. -/
theorem State.noteRead_opJump_reports (s : State) (rd rs1 : Reg) (target : Word) :
    Reports s ((s.noteRead rs1).opJump rd target) [rs1] := by
  simp [Reports, State.opJump]

/-- The instruction a word decodes to reports the unwritten registers among those the word's record reads. -/
theorem exec_reports {w : Word} {i : Instr} (h : decode w = .ok i) (s : State) :
    ∃ t, exec i s = .next t ∧ Reports s t (decodeRecord w).reads := by
  by_cases hop : opcodeOf w ∈ implementedOpcodes
  · simp only [implementedOpcodes, List.mem_cons, List.not_mem_nil, or_false] at hop
    obtain hop | hop | hop | hop | hop | hop | hop | hop | hop := hop <;> simp [decode, hop] at h <;>
      rw [decodeRecord_reads (congrArg formatOf hop)]
    · exact ⟨_, exec_of_decodeRegister h s, s.opRegister_reports ..⟩
    · exact ⟨_, h ▸ exec_decodeImmediate w s, s.opImmediate_reports ..⟩
    · exact ⟨_, exec_of_decodeLoad h s, s.opLoad_reports ..⟩
    · exact h ▸ ⟨_, rfl, s.noteRead_opJump_reports ..⟩
    · exact ⟨_, exec_of_decodeStore h s, s.opStore_reports ..⟩
    · exact ⟨_, exec_of_decodeBranch h s, s.opBranch_reports ..⟩
    · exact h ▸ ⟨_, rfl, s.opUpper_reports ..⟩
    · exact h ▸ ⟨_, rfl, s.opUpper_reports ..⟩
    · exact h ▸ ⟨_, rfl, s.opJump_reports ..⟩
  · have hnop := (formatOf_eq_nop_iff _).2 hop
    obtain rfl : decodeOther w = i := by simpa [decode_of_nop hnop] using h
    rw [decodeRecord_reads hnop]
    exact ⟨_, decodeOther_isNop w s, s.opNop_reports⟩

/-- Settles O20: the instruction is what its own word decodes to. -/
theorem unwrittenReadsAreReported : Obligations.UnwrittenReadsAreReported := by
  intro i s t hwf h
  obtain ⟨u, hu, hreports⟩ := exec_reports (decode_encode hwf) s
  obtain rfl := Host.Outcome.next.inj (hu.symm.trans h)
  exact hreports

end Sys2Proof.Machine

/-! SUPPORT. Loading, the host's clock, the first instruction after reset and the end of a run
(70_reset_and_hazards.md R501 to R507). -/

namespace Sys2Proof.Machine

/-! ## Loading a program (R501) -/

/-- An image's first byte is read at its first address, whether or not it is listed. -/
theorem sparseGet_imageCells_cons (a k : Nat) (b : Byte) (bs : List Byte) :
    sparseGet 0#8 (imageCells a (b :: bs)) k = if a = k then b else sparseGet 0#8 (imageCells (a + 1) bs) k := by
  by_cases hb : b = 0#8
  · have hcells : imageCells a (b :: bs) = imageCells (a + 1) bs := if_pos hb
    rw [hcells]
    split
    · next ha =>
      subst ha hb
      refine sparseGet_absent 0#8 _ a fun e he => ?_
      obtain ⟨hlow, -, -⟩ := mem_imageCells (a + 1) bs e he
      omega
    · rfl
  · have hcells : imageCells a (b :: bs) = (a, b) :: imageCells (a + 1) bs := if_neg hb
    rw [hcells, sparseGet_cons]

/-- The image's bytes lie at the addresses from its first on, and zeros after it. -/
theorem sparseGet_imageCells {a k : Nat} (image : List Byte) (h : a ≤ k) :
    sparseGet 0#8 (imageCells a image) k = image.getD (k - a) 0#8 := by
  induction image generalizing a with
  | nil => rfl
  | cons b bs ih =>
    rw [sparseGet_imageCells_cons]
    split
    · next ha => simp [ha]
    · next ha =>
      rw [ih (by omega), show k - a = k - (a + 1) + 1 by omega]
      rfl

/-- Settles O58: the load's memory is the image's cells, which lie within memory. -/
theorem loadProgram : Obligations.LoadProgram := by
  intro s k image p hlegal
  refine ⟨fun hfits => ⟨_, (s.load_next_iff _ k image).2 ⟨hlegal, hfits, rfl⟩, fun a _ =>
    sparseGet_imageCells image (Nat.zero_le a), imageCells_wf (2 ^ k) 0 image (by omega), rfl⟩, fun hlong => ?_⟩
  have hsize : ¬ p.legal = false := by simp [hlegal]
  exact (if_neg hsize).trans (if_pos hlong)

/-! ## The host's clock (R505, R507) -/

section

variable {s : State}

/-- A state with no action waiting is unchanged by emptying its schedule. -/
theorem State.withInbox_nil (h : s.inbox = []) : ({ s with inbox := [] } : State) = s := by rw [← h]

theorem State.withPace_self {x : Pace} (h : s.pace = x) : ({ s with pace := x } : State) = s := by rw [← h]

/-- The one action waiting is applied to the state that has none waiting. -/
theorem step_single_action (hlegal : s.params.legal = true) (hinbox : s.inbox = []) (a : HostAction) :
    step { s with inbox := [a] } = hostAction a s := by
  rw [step_action (s := { s with inbox := [a] }) (rest := []) hlegal rfl]
  exact congrArg (hostAction a) (State.withInbox_nil hinbox)

end

/-- Settles O57: a waiting action is applied whole, and a cycle neither reads nor changes the pace. -/
theorem clockControls : Obligations.ClockControls := by
  intro s hlegal hinbox hpace h
  have hstart : ({ h with pace := .cycle } : State) = s := State.withPace_self hpace
  refine ⟨step_cycle hlegal hinbox hpace, ?_, step_single_action hlegal hinbox .stop,
    run_halted (s := h) hlegal hinbox rfl, step_single_action (s := h) hlegal hinbox, fun t ht => ?_,
    fun r hr => ?_, ?_⟩
  · rw [step_single_action hlegal hinbox]
    exact congrArg Host.Outcome.next hstart
  · rw [step_single_action (s := h) hlegal hinbox, hostAction, cycle_withPace, ht]
  · rw [step_single_action (s := h) hlegal hinbox, hostAction, cycle_withPace, hr]
  · rw [step_single_action (s := h) hlegal hinbox]
    exact congrArg Host.Outcome.next hstart

/-! ## Cycles that issue an instruction with no effect -/

theorem Inst.writes_of_effectless {i : Inst} (h : i.effectless = true) {r : Reg} (hr : r ≠ 0#5) :
    i.writes r = false := by
  obtain ⟨hrd, -, -⟩ := i.effectless_iff.1 h
  rw [Inst.writes, Bool.eq_false_iff]
  intro hwrites
  simp only [Bool.and_eq_true, beq_iff_eq] at hwrites
  obtain ⟨hproducer, rfl⟩ := hwrites
  simp [hproducer, hr] at hrd

/-- An instruction with no effect in Execute squashes nothing and keeps no operand back, so Decode issues (R330,
R331). -/
theorem State.decodeCase_of_effectless {s : State} (hirq : s.irqActive = false)
    (h : s.idex.inst.effectless = true) : s.decodeCase = .issue := by
  obtain ⟨-, -, hcf⟩ := s.idex.inst.effectless_iff.1 h
  have hsource : ∀ r, operandSource s r ≠ .unresolved := fun r => by
    by_cases hr : r = 0#5
    · simp [operandSource, hr]
    · rw [operandSource_of_ne_zero hr, Inst.writes_of_effectless h hr]
      cases s.exmem.inst.writes r <;> cases s.memwb.inst.writes r <;> simp
  exact s.decodeCase_eq_issue_iff.2 ⟨hirq, squashes_of_not_isCf hcf,
    s.hazard_eq_false_iff.2 ⟨fun _ => hsource _, fun _ => hsource _⟩⟩

/-- With an instruction of the table in Decode, issued or not, a cycle goes on. -/
theorem cycle_of_decode_ok {s : State} {i : Instr} (h : decode s.ifid.word = .ok i) :
    cycle s = .next (commit s (decodeOut s)) :=
  (cycle_next_iff s _).2 ⟨State.issuesReserved_of_decode_ok h, rfl⟩

/-! ## The first instruction after reset (R504) -/

/-- An issued word goes from stage to stage in the cycles after (R300, R331). -/
theorem word_passes_stages {s : State} (hissue : s.decodeCase = .issue) :
    (∀ t, cycles 1 s = .next t → t.idex.inst = decodeRecord s.ifid.word ∧ t.idex.pc = s.ifid.pc)
      ∧ (∀ t, cycles 2 s = .next t → t.exmem.inst = decodeRecord s.ifid.word ∧ t.exmem.pc = s.ifid.pc)
      ∧ (∀ t, cycles 3 s = .next t → t.memwb.inst = decodeRecord s.ifid.word ∧ t.memwb.pc = s.ifid.pc) := by
  have hidex : (decodeOut s).idex.inst = decodeRecord s.ifid.word ∧ (decodeOut s).idex.pc = s.ifid.pc := by
    rw [decodeOut_idex_of_issue hissue]
    exact ⟨rfl, rfl⟩
  simp only [cycles_succ_next_iff, cycle_next_iff]
  refine ⟨?_, ?_, ?_⟩
  · rintro t ⟨_, ⟨-, rfl⟩, h⟩
    exact Host.Outcome.next.inj h ▸ hidex
  · rintro t ⟨_, ⟨-, rfl⟩, _, ⟨-, rfl⟩, h⟩
    exact Host.Outcome.next.inj h ▸ hidex
  · rintro t ⟨_, ⟨-, rfl⟩, _, ⟨-, rfl⟩, _, ⟨-, rfl⟩, h⟩
    exact Host.Outcome.next.inj h ▸ hidex

/-- In cycle 1 the NOP in IF/ID is issued and Fetch reads the word at 0 (R504). -/
theorem cycle_coreReset (s : State) :
    ∃ t, cycle s.coreReset = .next t ∧ t = commit s.coreReset (decodeOut s.coreReset)
      ∧ t.idex.inst = decodeRecord nopWord ∧ t.pcF = 0#32
      ∧ t.ifid = fetchAt s.coreReset (signals s.coreReset) 0#32 := by
  have hissue : s.coreReset.decodeCase = .issue := State.decodeCase_of_effectless rfl rfl
  have hdecode : decode nopWord = .ok (.addi 0#5 0#5 0#12) := by decide
  have hpc : (commit s.coreReset (decodeOut s.coreReset)).pcF = 0#32 := currentFetchPc_of_issue hissue
  have hstall : ((decodeOut s.coreReset).stall && !squashes s.coreReset.idex) = false := by simp [decodeOut, hissue]
  obtain ⟨-, hifid, -⟩ := commit_fetch_of_not_stalled hstall
  rw [hpc] at hifid
  refine ⟨_, cycle_of_decode_ok hdecode, rfl, ?_, hpc, hifid⟩
  rw [commit_idex, decodeOut_idex_of_issue hissue]
  rfl

/-- Settles O60: once the reset NOP has been issued without effect, the word at 0 is issued and passes the stages. -/
theorem firstInstructionAfterReset : Obligations.FirstInstructionAfterReset := by
  intro s r w
  obtain ⟨u, hcycle, hu, hnop, hpc, hifid⟩ := cycle_coreReset s
  have hword : u.ifid.word = w := by rw [hifid]; rfl
  have hword_pc : u.ifid.pc = 0#32 := by rw [hifid]; rfl
  have hissue : u.decodeCase = .issue :=
    State.decodeCase_of_effectless (irqActive_of_cycle hcycle rfl) (hnop ▸ decodeRecord_nopWord_effectless)
  have hrun : ∀ {n t}, cycles (n + 1) r = .next t → cycles n u = .next t := fun h => by
    obtain ⟨v, hv, ht⟩ := (cycles_succ_next_iff _ r _).1 h
    rwa [← Host.Outcome.next.inj (hcycle.symm.trans hv)] at ht
  have hregs : u.regs = r.regs := by rw [hu, (commit_regs_of_rd_zero r _ rfl).1]
  have hmem : u.mem = r.mem := by rw [hu, commit_mem, signals_mem_of_not_store rfl]
  obtain ⟨hexecute, hmemory, hwriteBack⟩ := word_passes_stages hissue
  rw [hword, hword_pc] at hexecute hmemory hwriteBack
  exact ⟨u, hcycle, rfl, hpc, hword, hword_pc, hregs, hmem, hissue, fun t h => hexecute t (hrun h),
    fun t h => hmemory t (hrun h), fun t h => hwriteBack t (hrun h)⟩

/-! ## The end of a run (R506) -/

/-- The self-jump's word, `jal x0, 0`. -/
abbrev selfJumpWord : Word := 0x0000006F#32

theorem endStage_iff (e : Word) (i : Inst) (pc : Word) :
    endStage e i pc = true ↔ i = Inst.bubble ∨ (i = decodeRecord selfJumpWord ∧ pc = e) := by
  simp [endStage]

theorem State.ended_iff (s : State) (e : Word) :
    s.ended e = true ↔ s.ifid.word = selfJumpWord ∧ s.ifid.pc = e ∧ endStage e s.idex.inst s.idex.pc = true
      ∧ endStage e s.exmem.inst s.exmem.pc = true ∧ endStage e s.memwb.inst s.memwb.pc = true := by
  simp only [State.ended, Bool.and_eq_true, decide_eq_true_eq, and_assoc]

section

variable {e pc : Word} {i : Inst} (h : endStage e i pc = true)
include h

/-- Neither a bubble nor the self-jump writes a register or stores. -/
theorem rd_and_isStore_of_endStage : i.rd = 0#5 ∧ i.isStore = false := by
  obtain rfl | ⟨rfl, -⟩ := (endStage_iff e i pc).1 h
  · exact ⟨rfl, rfl⟩
  · decide

/-- What transfers control goes to `e`. -/
theorem alu_of_endStage (hcf : i.isCf = true) (a b : Word) : i.alu a b pc = e := by
  obtain rfl | ⟨rfl, rfl⟩ := (endStage_iff e i pc).1 h
  · cases hcf
  · rw [alu_decodeRecord_of_jal rfl]
    exact BitVec.add_zero pc

end

section

variable {s : State} {e : Word} (h : s.ended e = true)
include h

/-- The self-jump reads no register, so Decode squashes or issues (R330). -/
theorem decodeCase_of_ended (hirq : s.irqActive = false) : s.decodeCase = .squash ∨ s.decodeCase = .issue := by
  obtain ⟨hword, -⟩ := (s.ended_iff e).1 h
  have hhazard : s.hazard = false := by
    rw [State.hazard, State.inDecode, hword]
    rfl
  rw [s.decodeCase_eq_squash_iff, s.decodeCase_eq_issue_iff]
  cases squashes s.idex <;> simp [hirq, hhazard]

/-- Execute redirects Fetch to `e`, where it would go on anyway. -/
theorem fetch_of_ended (hnpc : s.npcF = e) (hirq : s.irqActive = false)
    (hmem : readWord s.params s.mem e = selfJumpWord) :
    (commit s (decodeOut s)).ifid = { word := selfJumpWord, pc := e, pred := e }
      ∧ (commit s (decodeOut s)).npcF = e := by
  obtain ⟨-, -, hidex, hexmem, -⟩ := (s.ended_iff e).1 h
  have hstall : ((decodeOut s).stall && !squashes s.idex) = false := by
    obtain hc | hc := decodeCase_of_ended h hirq <;> simp [decodeOut, hc]
  obtain ⟨hpc, hifid, hnext⟩ := commit_fetch_of_not_stalled hstall
  have hat : (commit s (decodeOut s)).pcF = e := by
    rw [hpc]
    split
    · next hsquash =>
      exact alu_of_endStage hidex (Bool.and_eq_true_iff.1 hsquash).1 _ _
    · exact hnpc
  have hfetch : fetchAt s (signals s) e = { word := selfJumpWord, pc := e, pred := e } := by
    have hread : readWord s.params (signals s).mem e = selfJumpWord := by
      rw [signals_mem_of_not_store (rd_and_isStore_of_endStage hexmem).2, hmem]
    rw [fetchAt]
    simp only [hread, predictNext_of_jal (w := selfJumpWord) rfl]
    rw [show sext21 (immJOf selfJumpWord) = 0#32 by decide, BitVec.add_zero]
  rw [hat, hfetch] at hifid
  exact ⟨hifid, by rw [hnext, hifid]⟩

end

/-- Settles O47: every stage hands on a bubble or the self-jump, and Fetch reads the self-jump again. -/
theorem endOfRunPersists : Obligations.EndOfRunPersists := by
  intro s e h hnpc hirq hmem
  obtain ⟨hword, hpc, hidex, hexmem, hmemwb⟩ := (s.ended_iff e).1 h
  have hcycle : cycle s = .next (commit s (decodeOut s)) :=
    cycle_of_decode_ok (i := .jal 0#5 0#21) (by rw [hword]; rfl)
  obtain ⟨hifid, hnext⟩ := fetch_of_ended h hnpc hirq hmem
  have hissued : endStage e (decodeOut s).idex.inst (decodeOut s).idex.pc = true := by
    obtain hc | hc := decodeCase_of_ended h hirq
    · rw [decodeOut_idex_of_squash_or_hazard (.inl hc)]
      exact (endStage_iff ..).2 (.inl rfl)
    · rw [decodeOut_idex_of_issue hc]
      exact (endStage_iff ..).2 (.inr ⟨congrArg decodeRecord hword, hpc⟩)
  obtain ⟨hregs, hwritten⟩ := commit_regs_of_rd_zero s (decodeOut s) (rd_and_isStore_of_endStage hmemwb).1
  exact ⟨_, hcycle, (State.ended_iff _ e).2 ⟨by rw [hifid], by rw [hifid], hissued, hidex, hexmem⟩, hnext,
    irqActive_of_cycle hcycle hirq, signals_mem_of_not_store (rd_and_isStore_of_endStage hexmem).2, hregs, hwritten,
    commit_params s _⟩

end Sys2Proof.Machine
